-- ==== Sys2Proof/Word.lean ====
section
/-! DEFINITION. The word types of the block (R9, R13 of `00_scope.md`): every value is unsigned (R12), and
bit 0 is the least significant bit (R11). -/

namespace Sys2Proof

/-- `u8`: the unit of shared memory, of the control byte and of the STAT word (R9, R13). -/
abbrev Byte := BitVec 8

/-- `u16`: the byte count and the three 16-bit fields of the SETUP packet (R9, R13). -/
abbrev Half := BitVec 16

/-- `u32`: the buffer address, and one word of a command record (R9, R101). -/
abbrev Word := BitVec 32

/-- `u4`: an endpoint number, as the STAT word and the token carry it (R9, R13, R99). -/
abbrev Ep := BitVec 4

end Sys2Proof
end

