-- ==== Sys2Proof/Syntax.lean ====
section
/-! DEFINITION. The operations of the block as terms: one constructor of `Instr` per row of
spec/opcode_table.json (R2: the operations at the block's interfaces are its instructions), with the types of
their operands, and the two forms in which an operation reaches the block: FW's command record (R101) and the
host's token with its data stage (R99, R104, R210). -/

namespace Sys2Proof

/-- Direction of a channel (R13): `rx` is 0 and serves OUT and SETUP, `tx` is 1 and serves IN (R211). -/
inductive Dir where
  | rx | tx
  deriving DecidableEq, Repr

/-- Parity of a buffer (R13): `even` is 0, `odd` is 1. -/
inductive Par where
  | even | odd
  deriving DecidableEq, Repr

/-- Owner of an entry (R13, R39): `mcu` is 0, `sie` is 1. -/
inductive Own where
  | mcu | sie
  deriving DecidableEq, Repr

/-- The firmware's BufferToggle (R13, R44). -/
inductive BufferToggle where
  | even | odd
  deriving DecidableEq, Repr

/-- The firmware's DataToggle (R13, R45). -/
inductive DataToggle where
  | data0 | data1
  deriving DecidableEq, Repr

/-- The PID of a data packet (R100, R210). -/
inductive DataPid where
  | data0 | data1
  deriving DecidableEq, Repr

/-- The kind of a host token (R210): `in` is written `inn`. -/
inductive Tok where
  | setup | out | inn
  deriving DecidableEq, Repr

/-- One (endpoint, direction) pair (R19). -/
structure Channel where
  ep  : Ep
  dir : Dir
  deriving DecidableEq, Repr

/-- A handle `h = (ep, dir, par)`, the name of one BDT entry (R13). -/
structure Handle where
  ep  : Ep
  dir : Dir
  par : Par
  deriving DecidableEq, Repr

/-- The typed fields of a SETUP packet (R97, R98, R127). -/
structure SetupPacket where
  recipient : BitVec 5
  type      : BitVec 2
  direction : BitVec 1
  bRequest  : Byte
  wValue    : Half
  wIndex    : Half
  wLength   : Half
  deriving DecidableEq, Repr

/-- The six operands of CTRL_PACK (R142), the setup view of a control byte less its reserved bits (R91). -/
structure CtrlBits where
  own      : BitVec 1
  data01   : BitVec 1
  keep     : BitVec 1
  ninc     : BitVec 1
  dts      : BitVec 1
  bdtStall : BitVec 1
  deriving DecidableEq, Repr

/-- The operations, one constructor per row of spec/opcode_table.json, in the table's order (R102, R104).
The operands of the three SIE transactions are the token's endpoint and the host's free choices (R210). -/
inductive Instr where
  | bdtInit (h : Handle) (ctrl : Byte) (bc : Half) (addr : Word)
  | bdtSetBc (h : Handle) (bc : Half)
  | bdtSetAddr (h : Handle) (addr : Word)
  | bdtSetCtrl (h : Handle) (ctrl : Byte)
  | bdtReadCtrl (h : Handle)
  | bdtReadBc (h : Handle)
  | bdtReadAddr (h : Handle)
  | flipBuf (ep : Ep) (dir : Dir)
  | flipData (ep : Ep) (dir : Dir)
  | clearToggles (ep : Ep) (dir : Dir)
  | readToggles (ep : Ep) (dir : Dir)
  | oddReset
  | statPop
  | statDecode (raw : Byte)
  | statEncode (endp : Ep) (tx : BitVec 1) (odd : BitVec 1)
  | statToHandle (raw : Byte)
  | reqRecipient (b : Byte)
  | reqType (b : Byte)
  | reqDirection (b : Byte)
  | requestType (d : BitVec 1) (t : BitVec 2) (r : BitVec 5)
  | setupDecode (bytes : List Byte)
  | setupEncode (p : SetupPacket)
  | ctrlSetupView (c : Byte)
  | ctrlResultView (c : Byte)
  | ctrlPack (f : CtrlBits)
  | notBuf (t : BufferToggle)
  | notData (t : DataToggle)
  | barrier
  | memStore1 (v : BitVec 8) (addr : Word)
  | memStore2 (v : BitVec 16) (addr : Word)
  | memStore4 (v : BitVec 32) (addr : Word)
  | memLoad1 (addr : Word)
  | memLoad2 (addr : Word)
  | memLoad4 (addr : Word)
  | setupFetch (addr : Word)
  | sieSetup (ep : Ep) (pid : DataPid) (payload : List Byte) (lax : Bool)
  | sieOut (ep : Ep) (pid : DataPid) (payload : List Byte)
  | sieIn (ep : Ep) (ack : Bool)
  deriving DecidableEq, Repr

/-- FW's command record: three 32-bit words, `w0` with the operation code, `v` and `a` its operand words (R101). -/
structure Record where
  w0 : Word
  v  : Word
  a  : Word
  deriving DecidableEq, Repr

/-- One host step as it reaches the SIE: the 24-bit token packet (R99) and the host's other choices, which are
operands of the step and not of the token (R104, R210): the data packet's PID and payload, whether the host
acknowledges an IN, and the laxity choice of a SETUP (R237). -/
structure HostStep where
  token   : BitVec 24
  pid     : DataPid
  payload : List Byte
  ack     : Bool
  lax     : Bool
  deriving DecidableEq, Repr

/-- An operation before decoding: a command record of FW (R101) or a host step (R104). -/
inductive Encoded where
  | command (r : Record)
  | host (h : HostStep)
  deriving DecidableEq, Repr

/-- `bdt.give h, ctrl, bc, addr` (R109): initialise the entry and hand it to the SIE. -/
def Instr.bdtGive (h : Handle) (ctrl : Byte) (bc : Half) (addr : Word) : Instr :=
  .bdtInit h (ctrl ||| 0x80#8) bc addr

/-- `bdt.arm h, tog, bc, addr` (R109): own, DTS on, DATA toggle `tog`. -/
def Instr.bdtArm (h : Handle) (tog : BitVec 1) (bc : Half) (addr : Word) : Instr :=
  .bdtInit h (0x88#8 ||| (tog.setWidth 8 <<< 6)) bc addr

/-- `bdt.stall h` (R109): own and BDT_STALL. -/
def Instr.bdtStall (h : Handle) : Instr :=
  .bdtSetCtrl h 0x84#8

end Sys2Proof
end

