-- ==== Sys2Proof/WellFormed.lean ====
section
/-! DEFINITION. Which terms of `Instr` are operations of the block. Every operand but one has a type of exactly
its field's width (R103), so the one check is that SETUP_DECODE is given eight bytes (R127). -/

namespace Sys2Proof

/-- The check of one operation: SETUP_DECODE's operand is a sequence of eight bytes `s[0..7]` (R127); a payload
of the host has any length (R213). -/
def Instr.wellFormed : Instr → Bool
  | .setupDecode bytes => bytes.length == 8
  | .bdtInit .. | .bdtSetBc .. | .bdtSetAddr .. | .bdtSetCtrl .. | .bdtReadCtrl .. | .bdtReadBc ..
  | .bdtReadAddr .. | .flipBuf .. | .flipData .. | .clearToggles .. | .readToggles .. | .oddReset | .statPop
  | .statDecode .. | .statEncode .. | .statToHandle .. | .reqRecipient .. | .reqType .. | .reqDirection ..
  | .requestType .. | .setupEncode .. | .ctrlSetupView .. | .ctrlResultView .. | .ctrlPack .. | .notBuf ..
  | .notData .. | .barrier | .memStore1 .. | .memStore2 .. | .memStore4 .. | .memLoad1 .. | .memLoad2 ..
  | .memLoad4 .. | .setupFetch .. | .sieSetup .. | .sieOut .. | .sieIn .. => true

end Sys2Proof
end

