-- ==== Sys2Proof/Decode.lean ====
section
/-! DEFINITION. The encodings of `30_encoding.md`: the bit correspondences of the small types, the operation codes
of R102, the decoder of command records and of host tokens, total and rejecting by name (R104, R105, R110), and
the encoder, written from the same tables. -/

namespace Sys2Proof

/-! ## Bits of the small types (R13, R183) -/

/-- RX is 0, TX is 1 (R13). -/
def Dir.bit : Dir → Bool
  | .rx => false
  | .tx => true

/-- The direction a bit spells (R13, R101). -/
def Dir.ofBit (b : Bool) : Dir := if b then .tx else .rx

/-- EVEN is 0, ODD is 1 (R13). -/
def Par.bit : Par → Bool
  | .even => false
  | .odd => true

/-- The parity a bit spells (R13, R101). -/
def Par.ofBit (b : Bool) : Par := if b then .odd else .even

/-- MCU is 0, SIE is 1 (R13, R39). -/
def Own.ofBit (b : Bool) : Own := if b then .sie else .mcu

/-- Even is 0, Odd is 1 (R173, R183). -/
def BufferToggle.bit : BufferToggle → Bool
  | .even => false
  | .odd => true

/-- The BufferToggle that the operand bit `B[0]` spells (R173). -/
def BufferToggle.ofBit (b : Bool) : BufferToggle := if b then .odd else .even

/-- The parity a BufferToggle stands for (R44, R183). -/
def BufferToggle.toPar : BufferToggle → Par
  | .even => .even
  | .odd => .odd

/-- DATA0 is 0, DATA1 is 1: the `data0_1` bit of an entry (R45, R183). -/
def DataToggle.bit : DataToggle → Bool
  | .data0 => false
  | .data1 => true

/-- The DataToggle that the operand bit `B[0]` spells (R174). -/
def DataToggle.ofBit (b : Bool) : DataToggle := if b then .data1 else .data0

/-- The PID that a `data0_1` bit or a DataToggle stands for (R183, R228). -/
def DataPid.ofBit (b : Bool) : DataPid := if b then .data1 else .data0

/-! ## USB packet identifiers (R99, R100) -/

/-- The 4-bit token PIDs (R99). -/
def Tok.pid : Tok → BitVec 4
  | .setup => 0xD#4
  | .out => 0x1#4
  | .inn => 0x9#4

/-- The 4-bit data PIDs (R100). -/
def DataPid.pid : DataPid → BitVec 4
  | .data0 => 0x3#4
  | .data1 => 0xB#4

/-- The handshake packets (R100): the SIE's ACK, NAK and STALL, and the host's ACK of an IN (R229). -/
inductive Handshake where
  | ack | nak | stall
  deriving DecidableEq, Repr

/-- The 4-bit handshake PIDs (R100). -/
def Handshake.pid : Handshake → BitVec 4
  | .ack => 0x2#4
  | .nak => 0xA#4
  | .stall => 0xE#4

/-- The 8-bit PID byte `(~pid, pid)`, with the check nibble in bits 7:4 (R99). -/
def pidByte (p : BitVec 4) : Byte := ~~~p ++ p

/-- A data PID's toggle is `pid[3]` (R100). -/
def DataPid.toggle (p : DataPid) : Bool := p.pid.getLsbD 3

/-- The transaction a token's PID byte selects (R104); no other byte selects one (R106). -/
def Tok.ofPidByte (b : Byte) : Option Tok :=
  match b.toNat with
  | 0x2D => some .setup
  | 0xE1 => some .out
  | 0x69 => some .inn
  | _ => none

/-- `pidByte = t[7:0]` of a token packet (R99). -/
def tokenPidByte (t : BitVec 24) : Byte := t.extractLsb' 0 8

/-- `ADDR = t[14:8]`, the device address of a token packet (R99). -/
def tokenAddr (t : BitVec 24) : BitVec 7 := t.extractLsb' 8 7

/-- `ENDP = t[18:15]` of a token packet (R99). -/
def tokenEndp (t : BitVec 24) : Ep := t.extractLsb' 15 4

/-- `CRC5 = t[23:19]` of a token packet (R99). -/
def tokenCrc5 (t : BitVec 24) : BitVec 5 := t.extractLsb' 19 5

/-- A token packet from its four fields (R99). -/
def tokenOf (pid : Byte) (addr : BitVec 7) (endp : Ep) (crc5 : BitVec 5) : BitVec 24 :=
  crc5 ++ endp ++ addr ++ pid

/-! ## The fields of a command record (R101) -/

/-- `OP = w0[31:24]`. -/
def Record.op (r : Record) : Byte := r.w0.extractLsb' 24 8

/-- `EP = w0[23:20]`. -/
def Record.ep (r : Record) : Ep := r.w0.extractLsb' 20 4

/-- `DIR = w0[19]`. -/
def Record.dirBit (r : Record) : BitVec 1 := r.w0.extractLsb' 19 1

/-- `PAR = w0[18]`. -/
def Record.parBit (r : Record) : BitVec 1 := r.w0.extractLsb' 18 1

/-- `SZ = w0[17:16]`. -/
def Record.sz (r : Record) : BitVec 2 := r.w0.extractLsb' 16 2

/-- `B = w0[15:8]`. -/
def Record.b (r : Record) : Byte := r.w0.extractLsb' 8 8

/-- `w0[7:0]`, which must be 0x00. -/
def Record.low (r : Record) : Byte := r.w0.extractLsb' 0 8

/-- The direction operand (R101, R103). -/
def Record.dir (r : Record) : Dir := Dir.ofBit (r.dirBit.getLsbD 0)

/-- The parity operand (R101, R103). -/
def Record.par (r : Record) : Par := Par.ofBit (r.parBit.getLsbD 0)

/-- The handle operand `h = (EP, DIR, PAR)` (R103). -/
def Record.handle (r : Record) : Handle := ⟨r.ep, r.dir, r.par⟩

/-- Word 0 from its fields, bits 7:0 zero (R101). -/
def word0 (op : Byte) (ep : Ep) (dir par : BitVec 1) (sz : BitVec 2) (b : Byte) : Word :=
  op ++ ep ++ dir ++ par ++ sz ++ b ++ 0#8

/-- Byte `k` of a byte sequence. Of a sequence shorter than `k` it is 0: the case no operation of the block
reaches, since SETUP_DECODE is well formed with eight bytes only (log entry 12). -/
def byteAt (s : List Byte) (k : Nat) : Byte := s.getD k 0#8

/-- The 32-bit word whose bytes, the lowest first, stand at `k .. k+3` of a sequence (R127: little-endian). -/
def wordAt (s : List Byte) (k : Nat) : Word :=
  byteAt s (k + 3) ++ byteAt s (k + 2) ++ byteAt s (k + 1) ++ byteAt s k

/-- The four bytes of a word, lowest first: `s[k] = V[8k+7:8k]` (R127). -/
def bytesOfWord (w : Word) : List Byte :=
  [w.extractLsb' 0 8, w.extractLsb' 8 8, w.extractLsb' 16 8, w.extractLsb' 24 8]

/-! ## Operation codes (R102) -/

/-- The 31 operation codes of R102; MEM_STORE and MEM_LOAD stand for three operations each, told apart by `SZ`. -/
inductive Opcode where
  | bdtInit | bdtSetBc | bdtSetAddr | bdtSetCtrl | bdtReadCtrl | bdtReadBc | bdtReadAddr
  | flipBuf | flipData | clearToggles | readToggles | oddReset
  | statPop | statDecode | statEncode | statToHandle
  | reqRecipient | reqType | reqDirection | requestType | setupDecode | setupEncode
  | ctrlSetupView | ctrlResultView | ctrlPack | notBuf | notData
  | barrier | memStore | memLoad | setupFetch
  deriving DecidableEq, Repr

/-- The numbering of R102. -/
def Opcode.toByte : Opcode → Byte
  | .bdtInit => 0x01#8 | .bdtSetBc => 0x02#8 | .bdtSetAddr => 0x03#8 | .bdtSetCtrl => 0x04#8
  | .bdtReadCtrl => 0x05#8 | .bdtReadBc => 0x06#8 | .bdtReadAddr => 0x07#8
  | .flipBuf => 0x10#8 | .flipData => 0x11#8 | .clearToggles => 0x12#8 | .readToggles => 0x13#8
  | .oddReset => 0x14#8
  | .statPop => 0x20#8 | .statDecode => 0x21#8 | .statEncode => 0x22#8 | .statToHandle => 0x23#8
  | .reqRecipient => 0x30#8 | .reqType => 0x31#8 | .reqDirection => 0x32#8 | .requestType => 0x33#8
  | .setupDecode => 0x34#8 | .setupEncode => 0x35#8
  | .ctrlSetupView => 0x36#8 | .ctrlResultView => 0x37#8 | .ctrlPack => 0x38#8
  | .notBuf => 0x39#8 | .notData => 0x3A#8
  | .barrier => 0x40#8 | .memStore => 0x41#8 | .memLoad => 0x42#8 | .setupFetch => 0x43#8

/-- The operation code a byte spells, if any (R102, R105). -/
def Opcode.ofByte (b : Byte) : Option Opcode :=
  match b.toNat with
  | 0x01 => some .bdtInit | 0x02 => some .bdtSetBc | 0x03 => some .bdtSetAddr | 0x04 => some .bdtSetCtrl
  | 0x05 => some .bdtReadCtrl | 0x06 => some .bdtReadBc | 0x07 => some .bdtReadAddr
  | 0x10 => some .flipBuf | 0x11 => some .flipData | 0x12 => some .clearToggles | 0x13 => some .readToggles
  | 0x14 => some .oddReset
  | 0x20 => some .statPop | 0x21 => some .statDecode | 0x22 => some .statEncode | 0x23 => some .statToHandle
  | 0x30 => some .reqRecipient | 0x31 => some .reqType | 0x32 => some .reqDirection
  | 0x33 => some .requestType | 0x34 => some .setupDecode | 0x35 => some .setupEncode
  | 0x36 => some .ctrlSetupView | 0x37 => some .ctrlResultView | 0x38 => some .ctrlPack
  | 0x39 => some .notBuf | 0x3A => some .notData
  | 0x40 => some .barrier | 0x41 => some .memStore | 0x42 => some .memLoad | 0x43 => some .setupFetch
  | _ => none

/-! ## Decoding -/

/-- Why an encoding spells no operation. The first three are the causes of `REF_BAD_COMMAND` (R105, R274); the
last is a packet the SIE does not answer (R106). -/
inductive DecodeError where
  | lowBitsNotZero
  | unknownOp
  | reservedSize
  | notAToken
  deriving DecidableEq, Repr

/-- The operands of each operation code (R102, R103); `SZ = 0b11` spells no memory operation (R105). -/
def decodeOp (r : Record) : Opcode → Except DecodeError Instr
  | .bdtInit => .ok (.bdtInit r.handle r.b (r.v.extractLsb' 0 16) r.a)
  | .bdtSetBc => .ok (.bdtSetBc r.handle (r.v.extractLsb' 0 16))
  | .bdtSetAddr => .ok (.bdtSetAddr r.handle r.a)
  | .bdtSetCtrl => .ok (.bdtSetCtrl r.handle r.b)
  | .bdtReadCtrl => .ok (.bdtReadCtrl r.handle)
  | .bdtReadBc => .ok (.bdtReadBc r.handle)
  | .bdtReadAddr => .ok (.bdtReadAddr r.handle)
  | .flipBuf => .ok (.flipBuf r.ep r.dir)
  | .flipData => .ok (.flipData r.ep r.dir)
  | .clearToggles => .ok (.clearToggles r.ep r.dir)
  | .readToggles => .ok (.readToggles r.ep r.dir)
  | .oddReset => .ok .oddReset
  | .statPop => .ok .statPop
  | .statDecode => .ok (.statDecode r.b)
  | .statEncode => .ok (.statEncode r.ep r.dirBit r.parBit)
  | .statToHandle => .ok (.statToHandle r.b)
  | .reqRecipient => .ok (.reqRecipient r.b)
  | .reqType => .ok (.reqType r.b)
  | .reqDirection => .ok (.reqDirection r.b)
  | .requestType => .ok (.requestType (r.v.extractLsb' 16 1) (r.v.extractLsb' 8 2) (r.v.extractLsb' 0 5))
  | .setupDecode => .ok (.setupDecode (bytesOfWord r.v ++ bytesOfWord r.a))
  | .setupEncode => .ok (.setupEncode
      { recipient := r.v.extractLsb' 0 5, type := r.v.extractLsb' 5 2, direction := r.v.extractLsb' 7 1,
        bRequest := r.v.extractLsb' 8 8, wValue := r.v.extractLsb' 16 16,
        wIndex := r.a.extractLsb' 0 16, wLength := r.a.extractLsb' 16 16 })
  | .ctrlSetupView => .ok (.ctrlSetupView r.b)
  | .ctrlResultView => .ok (.ctrlResultView r.b)
  | .ctrlPack => .ok (.ctrlPack
      { own := r.v.extractLsb' 0 1, data01 := r.v.extractLsb' 1 1, keep := r.v.extractLsb' 2 1,
        ninc := r.v.extractLsb' 3 1, dts := r.v.extractLsb' 4 1, bdtStall := r.v.extractLsb' 5 1 })
  | .notBuf => .ok (.notBuf (BufferToggle.ofBit (r.b.getLsbD 0)))
  | .notData => .ok (.notData (DataToggle.ofBit (r.b.getLsbD 0)))
  | .barrier => .ok .barrier
  | .memStore =>
    match r.sz.toNat with
    | 0 => .ok (.memStore1 (r.v.extractLsb' 0 8) r.a)
    | 1 => .ok (.memStore2 (r.v.extractLsb' 0 16) r.a)
    | 2 => .ok (.memStore4 r.v r.a)
    | _ => .error .reservedSize
  | .memLoad =>
    match r.sz.toNat with
    | 0 => .ok (.memLoad1 r.a)
    | 1 => .ok (.memLoad2 r.a)
    | 2 => .ok (.memLoad4 r.a)
    | _ => .error .reservedSize
  | .setupFetch => .ok (.setupFetch r.a)

/-- The decoder of command records (R102, R105, R110): total; fields an operation does not use are ignored. -/
def decodeRecord (r : Record) : Except DecodeError Instr :=
  if r.low = 0#8 then
    match Opcode.ofByte r.op with
    | some o => decodeOp r o
    | none => .error .unknownOp
  else .error .lowBitsNotZero

/-- The transaction a host step selects (R104): the token's PID byte says which, `ENDP` is the endpoint operand,
and the host's other choices are its remaining operands. The token's ADDR and CRC5 are not looked at (log
entry 9). -/
def decodeHostStep (h : HostStep) : Except DecodeError Instr :=
  match Tok.ofPidByte (tokenPidByte h.token) with
  | some .setup => .ok (.sieSetup (tokenEndp h.token) h.pid h.payload h.lax)
  | some .out => .ok (.sieOut (tokenEndp h.token) h.pid h.payload)
  | some .inn => .ok (.sieIn (tokenEndp h.token) h.ack)
  | none => .error .notAToken

/-- The decoder. -/
def decode : Encoded → Except DecodeError Instr
  | .command r => decodeRecord r
  | .host h => decodeHostStep h

/-! ## Encoding -/

/-- A bit as a one-bit vector. -/
def bit1 (b : Bool) : BitVec 1 := BitVec.ofBool b

/-- A record whose word 0 holds the operation code and nothing else. -/
def plainRecord (o : Opcode) (v a : Word) : Encoded :=
  .command ⟨word0 o.toByte 0#4 0#1 0#1 0#2 0#8, v, a⟩

/-- A record with an 8-bit immediate `B`. -/
def byteRecord (o : Opcode) (b : Byte) : Encoded :=
  .command ⟨word0 o.toByte 0#4 0#1 0#1 0#2 b, 0#32, 0#32⟩

/-- A record with a handle operand (R103). -/
def handleRecord (o : Opcode) (h : Handle) (b : Byte) (v a : Word) : Encoded :=
  .command ⟨word0 o.toByte h.ep (bit1 h.dir.bit) (bit1 h.par.bit) 0#2 b, v, a⟩

/-- A record with a channel operand. -/
def channelRecord (o : Opcode) (ep : Ep) (dir : Dir) : Encoded :=
  .command ⟨word0 o.toByte ep (bit1 dir.bit) 0#1 0#2 0#8, 0#32, 0#32⟩

/-- A record of a memory operation with its size code (R101, R103). -/
def memRecord (o : Opcode) (sz : BitVec 2) (v a : Word) : Encoded :=
  .command ⟨word0 o.toByte 0#4 0#1 0#1 sz 0#8, v, a⟩

/-- A token packet of kind `t` for endpoint `ep`; its ADDR and CRC5 are 0 (log entry 9). -/
def tokenFor (t : Tok) (ep : Ep) : BitVec 24 := tokenOf (pidByte t.pid) 0#7 ep 0#5

/-- The encoder: the record or host step of an operation; every field the operation does not use is 0. -/
def encode : Instr → Encoded
  | .bdtInit h ctrl bc addr => handleRecord .bdtInit h ctrl (0#16 ++ bc) addr
  | .bdtSetBc h bc => handleRecord .bdtSetBc h 0#8 (0#16 ++ bc) 0#32
  | .bdtSetAddr h addr => handleRecord .bdtSetAddr h 0#8 0#32 addr
  | .bdtSetCtrl h ctrl => handleRecord .bdtSetCtrl h ctrl 0#32 0#32
  | .bdtReadCtrl h => handleRecord .bdtReadCtrl h 0#8 0#32 0#32
  | .bdtReadBc h => handleRecord .bdtReadBc h 0#8 0#32 0#32
  | .bdtReadAddr h => handleRecord .bdtReadAddr h 0#8 0#32 0#32
  | .flipBuf ep dir => channelRecord .flipBuf ep dir
  | .flipData ep dir => channelRecord .flipData ep dir
  | .clearToggles ep dir => channelRecord .clearToggles ep dir
  | .readToggles ep dir => channelRecord .readToggles ep dir
  | .oddReset => plainRecord .oddReset 0#32 0#32
  | .statPop => plainRecord .statPop 0#32 0#32
  | .statDecode raw => byteRecord .statDecode raw
  | .statEncode endp tx odd => .command ⟨word0 Opcode.statEncode.toByte endp tx odd 0#2 0#8, 0#32, 0#32⟩
  | .statToHandle raw => byteRecord .statToHandle raw
  | .reqRecipient b => byteRecord .reqRecipient b
  | .reqType b => byteRecord .reqType b
  | .reqDirection b => byteRecord .reqDirection b
  | .requestType d t r => plainRecord .requestType (0#15 ++ d ++ 0#6 ++ t ++ 0#3 ++ r) 0#32
  | .setupDecode s => plainRecord .setupDecode (wordAt s 0) (wordAt s 4)
  | .setupEncode p => plainRecord .setupEncode
      (p.wValue ++ p.bRequest ++ p.direction ++ p.type ++ p.recipient) (p.wLength ++ p.wIndex)
  | .ctrlSetupView c => byteRecord .ctrlSetupView c
  | .ctrlResultView c => byteRecord .ctrlResultView c
  | .ctrlPack f => plainRecord .ctrlPack
      (0#26 ++ f.bdtStall ++ f.dts ++ f.ninc ++ f.keep ++ f.data01 ++ f.own) 0#32
  | .notBuf t => byteRecord .notBuf (0#7 ++ bit1 t.bit)
  | .notData t => byteRecord .notData (0#7 ++ bit1 t.bit)
  | .barrier => plainRecord .barrier 0#32 0#32
  | .memStore1 v addr => memRecord .memStore 0#2 (0#24 ++ v) addr
  | .memStore2 v addr => memRecord .memStore 1#2 (0#16 ++ v) addr
  | .memStore4 v addr => memRecord .memStore 2#2 v addr
  | .memLoad1 addr => memRecord .memLoad 0#2 0#32 addr
  | .memLoad2 addr => memRecord .memLoad 1#2 0#32 addr
  | .memLoad4 addr => memRecord .memLoad 2#2 0#32 addr
  | .setupFetch addr => plainRecord .setupFetch 0#32 addr
  | .sieSetup ep pid payload lax => .host ⟨tokenFor .setup ep, pid, payload, false, lax⟩
  | .sieOut ep pid payload => .host ⟨tokenFor .out ep, pid, payload, false, false⟩
  | .sieIn ep ack => .host ⟨tokenFor .inn ep, .data0, [], ack, false⟩

/-! ## The opcode table's own numbering -/

/-- The command record whose bits are `w`, word 0 lowest. -/
def Record.ofNat (w : Nat) : Record :=
  ⟨BitVec.ofNat 32 w, BitVec.ofNat 32 (w >>> 32), BitVec.ofNat 32 (w >>> 64)⟩

/-- The host step with the token whose bits are `w` and every other choice of the host zero: DATA0, an empty
payload, no acknowledgement, not lax. -/
def HostStep.ofNat (w : Nat) : HostStep :=
  ⟨BitVec.ofNat 24 w, .data0, [], false, false⟩

/-- A row of spec/opcode_table.json of at most 24 bits is a TOKEN row, a wider one a CMD row. -/
def Encoded.ofTable (nbits w : Nat) : Encoded :=
  if nbits ≤ 24 then .host (HostStep.ofNat w) else .command (Record.ofNat w)

/-- The instruction the decoder reads from a word numbered as spec/opcode_table.json numbers it. -/
def decodeTableWord (nbits w : Nat) : Option Instr :=
  match decode (Encoded.ofTable nbits w) with
  | .ok i => some i
  | .error _ => none

/-! ## The table of masks -/

/-- One CMD row of spec/opcode_table.json: a record's word 0 matches it when `w0 & mask = value`. -/
structure OpRow where
  mnemonic : String
  value    : Word
  mask     : Word
  deriving DecidableEq, Repr

/-- Word 0 spells the row's operation. -/
def OpRow.matches (w : OpRow) (w0 : Word) : Bool := w0 &&& w.mask == w.value

/-- A row whose operation has one operation code for itself: bits 31:24 and 7:0 are fixed. -/
def opRow (mnemonic : String) (value : Word) : OpRow := ⟨mnemonic, value, 0xFF0000FF#32⟩

/-- A row of a memory operation: bits 17:16 are fixed too. -/
def memRow (mnemonic : String) (value : Word) : OpRow := ⟨mnemonic, value, 0xFF0300FF#32⟩

/-- The CMD rows of spec/opcode_table.json, in the table's order (R102, R110). -/
def commandRows : List OpRow :=
  [ opRow "BDT_INIT" 0x01000000#32, opRow "BDT_SET_BC" 0x02000000#32, opRow "BDT_SET_ADDR" 0x03000000#32,
    opRow "BDT_SET_CTRL" 0x04000000#32, opRow "BDT_READ_CTRL" 0x05000000#32, opRow "BDT_READ_BC" 0x06000000#32,
    opRow "BDT_READ_ADDR" 0x07000000#32 ] ++
  [ opRow "FLIP_BUF" 0x10000000#32, opRow "FLIP_DATA" 0x11000000#32, opRow "CLEAR_TOGGLES" 0x12000000#32,
    opRow "READ_TOGGLES" 0x13000000#32, opRow "ODD_RESET" 0x14000000#32, opRow "STAT_POP" 0x20000000#32,
    opRow "STAT_DECODE" 0x21000000#32, opRow "STAT_ENCODE" 0x22000000#32, opRow "STAT_TO_HANDLE" 0x23000000#32 ] ++
  [ opRow "REQ_RECIPIENT" 0x30000000#32, opRow "REQ_TYPE" 0x31000000#32, opRow "REQ_DIRECTION" 0x32000000#32,
    opRow "REQUEST_TYPE" 0x33000000#32, opRow "SETUP_DECODE" 0x34000000#32, opRow "SETUP_ENCODE" 0x35000000#32,
    opRow "CTRL_SETUP_VIEW" 0x36000000#32, opRow "CTRL_RESULT_VIEW" 0x37000000#32, opRow "CTRL_PACK" 0x38000000#32,
    opRow "NOT_BUF" 0x39000000#32, opRow "NOT_DATA" 0x3A000000#32 ] ++
  [ opRow "BARRIER" 0x40000000#32, memRow "MEM_STORE1" 0x41000000#32, memRow "MEM_STORE2" 0x41010000#32,
    memRow "MEM_STORE4" 0x41020000#32, memRow "MEM_LOAD1" 0x42000000#32, memRow "MEM_LOAD2" 0x42010000#32,
    memRow "MEM_LOAD4" 0x42020000#32, opRow "SETUP_FETCH" 0x43000000#32 ]

end Sys2Proof
end

