-- ==== Sys2Proof/Config.lean ====
section
/-! DEFINITION. What an implementation fixes (R8: the launch parameters, held as plain data so that a claim over
all states is a claim over every configuration) and the free values (R15: the draws). -/

namespace Sys2Proof

/-- The implementation parameters of R8. `disabled` lists the channels below `NUM_EP` that the SIE does not answer,
so that `EP_ENABLED` is its complement. `MEM_INIT` is an argument of the launch (`Machine.State.launch`), since
nothing but the contents of memory at power-on depends on it. -/
structure Config where
  /-- `NUM_EP`, the number of endpoints that have BDT entries. -/
  numEp     : Nat
  /-- `BDT_BASE`, the byte address of the entry with index 0. -/
  bdtBase   : Nat
  /-- `BDT_ALIGN`, the alignment `BDT_BASE` must have. -/
  bdtAlign  : Nat
  /-- `STAT_DEPTH`, the capacity of the status queue. -/
  statDepth : Nat
  /-- `MAX_PACKET`, the largest byte count of one IN transaction. -/
  maxPacket : Nat
  /-- The channels with `EP_ENABLED` false. -/
  disabled  : List Channel
  deriving DecidableEq, Repr

/-- The defaults of R8. `BDT_BASE` is OPEN there; 0x1FFFE000 is the value of `95_test_vectors.md` (log entry 2). -/
def Config.default : Config :=
  { numEp := 16, bdtBase := 0x1FFFE000, bdtAlign := 512, statDepth := 4, maxPacket := 1023, disabled := [] }

/-- `draw_N()` (R15): a fresh `w`-bit value under no law. The second argument numbers the draws of a run
(`State.draws`), so no two draws are the same call; nothing in Lean can evaluate it. -/
opaque Config.draw (w : Nat) (k : Nat) : BitVec w

end Sys2Proof
end

