-- ==== Sys2Proof/Machine/State.lean ====
section
/-! DEFINITION. The state of the block (`10_state.md`), the reasons a run stops (R273, R274), and the state right
after power-on reset (R51). Every field is plain data. -/

namespace Sys2Proof.Machine

/-- How far FW has synchronised with the SIE's last handback of an entry (R40). -/
inductive Sync where
  | acquired | completed | observed
  deriving DecidableEq, Repr

/-- One BDT entry (R33): the raw control byte (R34), the reserved byte (R35), the byte count (R36), the buffer
address (R37), the written marks (R38) and the synchronisation state (R40). -/
structure BdtEntry where
  ctrl  : Byte
  rsvd  : Byte
  bc    : Half
  addr  : Word
  ctrlW : Bool
  bcW   : Bool
  addrW : Bool
  sync  : Sync
  deriving DecidableEq, Repr

/-- The setup view of a control byte (R91, R140). -/
structure SetupView where
  bits : CtrlBits
  rsvd : BitVec 2
  deriving DecidableEq, Repr

/-- The result view of a control byte (R91, R92, R141). -/
structure ResultView where
  own    : BitVec 1
  data01 : BitVec 1
  tokPid : BitVec 4
  rsvd   : BitVec 2
  deriving DecidableEq, Repr

/-- The fields of a STAT word (R96, R190). -/
structure StatFields where
  endp : Ep
  tx   : BitVec 1
  odd  : BitVec 1
  deriving DecidableEq, Repr

/-- What FW operations return (R31), each operation in its own form. -/
inductive Value where
  /-- REQ_DIRECTION (R122). -/
  | u1 (v : BitVec 1)
  /-- REQ_TYPE (R121). -/
  | u2 (v : BitVec 2)
  /-- REQ_RECIPIENT (R120). -/
  | u5 (v : BitVec 5)
  /-- BDT_READ_CTRL, STAT_POP, STAT_ENCODE, REQUEST_TYPE, CTRL_PACK. -/
  | u8 (v : BitVec 8)
  /-- BDT_READ_BC (R150). -/
  | u16 (v : BitVec 16)
  /-- BDT_READ_ADDR (R151) and the memory loads (R256). -/
  | u32 (v : BitVec 32)
  /-- STAT_POP on an empty queue (R195). -/
  | empty
  /-- SETUP_ENCODE: a byte sequence (R128). -/
  | bytes (s : List Byte)
  /-- SETUP_DECODE and SETUP_FETCH (R127, R257). -/
  | setup (p : SetupPacket)
  /-- CTRL_SETUP_VIEW (R140). -/
  | setupView (v : SetupView)
  /-- CTRL_RESULT_VIEW (R141). -/
  | resultView (v : ResultView)
  /-- STAT_DECODE (R190). -/
  | stat (f : StatFields)
  /-- STAT_TO_HANDLE (R192). -/
  | handle (h : Handle)
  /-- NOT_BUF (R173). -/
  | buf (t : BufferToggle)
  /-- NOT_DATA (R174). -/
  | data (t : DataToggle)
  /-- READ_TOGGLES (R178). -/
  | toggles (b : BufferToggle) (d : DataToggle)
  deriving DecidableEq, Repr

/-- The SIE's answer without a data stage of its own: no answer (R217), NAK (R218), STALL (R220). -/
inductive Resp where
  | noResponse | nak | stall
  deriving DecidableEq, Repr

/-- Bus events (R234), one per transaction. -/
inductive BusEvent where
  /-- `tok, ep, resp`. -/
  | answer (tok : Tok) (ep : Ep) (resp : Resp)
  /-- `tok, ep, data: (pid, bytes), resp: ACK, stored` of a SETUP or OUT. -/
  | received (tok : Tok) (ep : Ep) (pid : DataPid) (bytes : List Byte) (stored : Bool)
  /-- `tok: IN, ep, data: (pid, bytes), hostAck`. -/
  | sent (ep : Ep) (pid : DataPid) (bytes : List Byte) (hostAck : Bool)
  deriving DecidableEq, Repr

/-- The faults of R273: the chip's behaviour is undefined or corrupting. The operation that raises one records it
in `State.faults` and has no other effect (R271); `step` of a faulted state answers it and the run stops (R277).
All are safe: the model stops where the hardware might go on. -/
inductive Fault where
  /-- Code 1: BDT_INIT, BDT_SET_BC, BDT_SET_ADDR or BDT_SET_CTRL on a SIE-owned entry (R143), or a MEM_STORE into
  its buffer (R252). Safe. -/
  | ownViolation
  /-- Code 2: BDT_SET_CTRL releases while `pending` (R253). Safe. -/
  | unorderedRelease
  /-- Code 3: an entry operation but BDT_READ_CTRL, or a memory operation, on an MCU-owned entry that is not
  `Acquired` (R143, R252). Safe. -/
  | unorderedAcquire
  /-- Code 4: an entry or toggle operation on an endpoint `>= NUM_EP` (R143, R149, R175 to R178). Safe. -/
  | badHandle
  /-- Code 5: a SIE transaction on a SIE-owned entry whose `bc` or `addr` was never written (R223). Safe. -/
  | sieUnwritten
  /-- Code 6: a 2- or 4-byte memory operation that is not naturally aligned (R252). Safe. -/
  | misaligned
  deriving DecidableEq, Repr

/-- Steps the model gives no meaning: the refusals of R274, recorded in `State.refused` by the step that is refused
(R272) and answered by the next one (R277), and the refusal of an operation that is not modelled. All are safe. -/
inductive Refusal where
  /-- An arm of `exec` without a meaning. Raised by no operation of this model. Safe. -/
  | notModelled (mnemonic : String)
  /-- Code 1: the decoder, on a record that spells no operation (R105). Safe. -/
  | badCommand
  /-- Code 2: a transaction on an entry with `keep` or `ninc` set (R221). Safe. -/
  | keepNinc
  /-- Code 3: a transaction on an entry with control bits 1:0 not zero (R222). Safe. -/
  | reservedCtrl
  /-- Code 4: a SIE buffer range that passes 2^32 or meets the BDT arena (R219). Safe. -/
  | bufferRange
  /-- Code 5: a received payload longer than `bc` (R224). Safe. -/
  | overflow
  /-- Code 6: an IN with `bc > MAX_PACKET` (R225). Safe. -/
  | bcLimit
  /-- Code 7: a FW memory operation that meets the BDT arena (R71, R252). Safe. -/
  | arenaAccess
  /-- Code 8: a FW memory operation that passes 2^32 (R252). Safe. -/
  | addrWrap
  /-- Code 9: the launch, on parameters outside their legal values (R8, R65). Safe. -/
  | config
  deriving DecidableEq, Repr

/-- What a fault records beside `pc` (R273). -/
inductive FaultDetail where
  | handle (h : Handle)
  | address (a : Word)
  | endpoint (ep : Ep)
  deriving DecidableEq, Repr

/-- One recorded fault (R271, R273, R279): its code, the handle, address or endpoint, and for an FW operation the
`pc` that names it; a fault of the SIE records no `pc`. -/
structure FaultRecord where
  code   : Fault
  detail : FaultDetail
  pc     : Option Nat
  deriving DecidableEq, Repr

/-- Who moves next (R7, R278): FW, the host with one token (R210), or the environment with a block reset in the
middle of a run (R300). -/
inductive Turn where
  | fw
  | host (h : HostStep)
  | blockReset
  deriving DecidableEq, Repr

/-- Shared memory (R47): the written bytes as pairs of address and byte, addresses strictly rising. An address that
is not listed is `Unwritten`. -/
abbrev Memory := List Host.Cell

/-- The state of the block.

The tables `bdt`, `sieOdd`, `fwBuf` and `fwData` have room for the 16 endpoints a 4-bit number names; the slots of
endpoints `>= NUM_EP` are no part of the machine (log entry 3). -/
structure State where
  /-- The launch parameters (R8); no step changes them. -/
  cfg      : Config
  /-- FW's operation list, one command record per operation (R32, R101); no step changes it. -/
  prog     : List Record
  /-- FW's program index (R32). -/
  pc       : Nat
  /-- Who moves next; FW does when the list is empty (R278, log entry 4). -/
  sched    : List Turn
  /-- The entries by index (R33, R170). -/
  bdt      : Vector BdtEntry 64
  /-- The SIE's parity pointers by channel (R42). -/
  sieOdd   : Vector Par 32
  /-- The posted STAT words, oldest first (R43). -/
  statQ    : List Byte
  /-- FW's BufferToggles by channel (R44). -/
  fwBuf    : Vector BufferToggle 32
  /-- FW's DataToggles by channel (R45). -/
  fwData   : Vector DataToggle 32
  /-- FW has written since its last barrier (R46). -/
  pending  : Bool
  /-- Shared memory (R47). -/
  mem      : Memory
  /-- The FW result log (R31). -/
  outLog   : List Value
  /-- The bus trace (R49). -/
  busTrace : List BusEvent
  /-- The sticky faults (R48, R271), in the order they were raised and without repeats. -/
  faults   : List FaultRecord
  /-- The sticky refusal mark (R48, R272). -/
  refused  : Option Refusal
  /-- The model's own counter of draws (R15, log entry 5). -/
  draws    : Nat
  deriving DecidableEq, Repr

/-- An entry after reset (R51): MCU-owned, bits 6:0 of the control byte, `bc` and `addr` unwritten, `Acquired`. The
bits under a false written mark are stored as 0 and never observed (log entry 1). -/
def BdtEntry.reset : BdtEntry :=
  { ctrl := 0#8, rsvd := 0#8, bc := 0#16, addr := 0#32, ctrlW := false, bcW := false, addrW := false,
    sync := .acquired }

/-- The state right after power-on reset (R51) in the default configuration (R8), with `MEM_INIT` every byte
Unwritten, no operation list loaded and no turn scheduled (log entry 4). -/
def State.reset : State :=
  { cfg := Config.default, prog := [], pc := 0, sched := [],
    bdt := Vector.replicate 64 BdtEntry.reset, sieOdd := Vector.replicate 32 .even, statQ := [],
    fwBuf := Vector.replicate 32 .even, fwData := Vector.replicate 32 .data0, pending := false, mem := [],
    outLog := [], busTrace := [], faults := [], refused := none, draws := 0 }

end Sys2Proof.Machine
end

