-- ==== Sys2Proof/Machine/Flags.lean ====
section
/-! DEFINITION. The block's flags: the bits of an entry's control byte (R41, R91), its three views (R90, R140,
R141), the packer (R142), the SIE's completion write-back (R230) and BDT_READ_CTRL's view of an unwritten byte
(R149). -/

namespace Sys2Proof.Machine

/-- `own = ctrl[7]` (R93). -/
def ctrlOwn (c : Byte) : BitVec 1 := c.extractLsb' 7 1

/-- `data0_1 = ctrl[6]` (R93). -/
def ctrlData01 (c : Byte) : BitVec 1 := c.extractLsb' 6 1

/-- `keep = ctrl[5]` in the setup view (R91). -/
def ctrlKeep (c : Byte) : BitVec 1 := c.extractLsb' 5 1

/-- `ninc = ctrl[4]` in the setup view (R91). -/
def ctrlNinc (c : Byte) : BitVec 1 := c.extractLsb' 4 1

/-- `dts = ctrl[3]` in the setup view (R91). -/
def ctrlDts (c : Byte) : BitVec 1 := c.extractLsb' 3 1

/-- `bdt_stall = ctrl[2]` in the setup view (R91). -/
def ctrlStall (c : Byte) : BitVec 1 := c.extractLsb' 2 1

/-- `tok_pid = ctrl[5:2]` in the result view (R92). -/
def ctrlTokPid (c : Byte) : BitVec 4 := c.extractLsb' 2 4

/-- The reserved bits `ctrl[1:0]` (R94). -/
def ctrlRsvd (c : Byte) : BitVec 2 := c.extractLsb' 0 2

/-- The flag is set. -/
def isSet (b : BitVec 1) : Bool := b.getLsbD 0

/-- The control byte says SIE-owned (R39). -/
def ctrlIsSie (c : Byte) : Bool := isSet (ctrlOwn c)

/-- The owner a control byte names (R39). -/
def ctrlOwner (c : Byte) : Own := Own.ofBit (ctrlIsSie c)

/-- The setup view (R140). -/
def setupView (c : Byte) : SetupView :=
  { bits := { own := ctrlOwn c, data01 := ctrlData01 c, keep := ctrlKeep c, ninc := ctrlNinc c,
              dts := ctrlDts c, bdtStall := ctrlStall c },
    rsvd := ctrlRsvd c }

/-- The result view (R141). -/
def resultView (c : Byte) : ResultView :=
  { own := ctrlOwn c, data01 := ctrlData01 c, tokPid := ctrlTokPid c, rsvd := ctrlRsvd c }

/-- The packer: the six bits with the reserved bits 0 (R142). -/
def packCtrl (f : CtrlBits) : Byte :=
  f.own ++ f.data01 ++ f.keep ++ f.ninc ++ f.dts ++ f.bdtStall ++ 0#2

/-- The completion write-back `(c & 0x43) | (tp << 2)` (R230): `own` becomes MCU and `tok_pid` becomes `tp`, while
`data0_1` and the reserved bits stay. -/
def completedCtrl (c : Byte) (tp : BitVec 4) : Byte :=
  (c &&& 0x43#8) ||| (tp.setWidth 8 <<< 2)

/-- The byte BDT_READ_CTRL returns (R149): the stored byte, or `own` with seven drawn bits while bits 6:0 are
unwritten. -/
def readableCtrl (e : BdtEntry) (fresh : BitVec 7) : Byte :=
  if e.ctrlW then e.ctrl else ctrlOwn e.ctrl ++ fresh

end Sys2Proof.Machine
end

