-- ==== Sys2Proof/Machine/Operands.lean ====
section
/-! DEFINITION. Operand forms and address arithmetic, all pure: the index and the address of an entry (R170, R171),
its image in the arena (R62, R95), the STAT word (R96), the SETUP packet (R97, R98), little-endian assembly (R60),
address ranges and the configuration's checks (R8, R65, R219, R258). -/

namespace Sys2Proof.Machine

/-! ## Indexes and addresses -/

/-- A bit as a number (R13). -/
def bitNat (b : Bool) : Nat := if b then 1 else 0

/-- `index(ep, dir, par) = 4*ep + 2*dir + par` as a number (R170). -/
def handleNumber (h : Handle) : Nat :=
  4 * h.ep.toNat + 2 * bitNat h.dir.bit + bitNat h.par.bit

/-- The number of a channel, `2*ep + dir`: the place of its parity pointer and toggles in their tables. -/
def channelNumber (c : Channel) : Nat := 2 * c.ep.toNat + bitNat c.dir.bit

theorem bitNat_le (b : Bool) : bitNat b ≤ 1 := by cases b <;> simp [bitNat]

theorem handleNumber_lt (h : Handle) : handleNumber h < 64 := by
  have h1 := h.ep.isLt
  have h2 := bitNat_le h.dir.bit
  have h3 := bitNat_le h.par.bit
  unfold handleNumber
  omega

theorem channelNumber_lt (c : Channel) : channelNumber c < 32 := by
  have h1 := c.ep.isLt
  have h2 := bitNat_le c.dir.bit
  unfold channelNumber
  omega

/-- The entry's place in the BDT (R170). -/
def handleIndex (h : Handle) : Fin 64 := ⟨handleNumber h, handleNumber_lt h⟩

/-- The channel's place in the tables of parity pointers and toggles. -/
def channelIndex (c : Channel) : Fin 32 := ⟨channelNumber c, channelNumber_lt c⟩

/-- `entryAddr(h) = BDT_BASE + 8*index(h)` (R170). -/
def entryAddr (cfg : Config) (h : Handle) : Nat := cfg.bdtBase + 8 * handleNumber h

/-- The eight bytes of an entry as they stand in the arena from `entryAddr` on (R62, R95, R171): control byte,
reserved byte, byte count and address, the last two little-endian. -/
def entryImage (e : BdtEntry) : List Byte :=
  [e.ctrl, e.rsvd, e.bc.extractLsb' 0 8, e.bc.extractLsb' 8 8] ++ bytesOfWord e.addr

/-- Every handle, in index order (R170). -/
def allHandles : List Handle :=
  (List.range 16).flatMap fun ep =>
    [.rx, .tx].flatMap fun dir => [.even, .odd].map fun par => ⟨BitVec.ofNat 4 ep, dir, par⟩

/-- The channel of a handle (R19). -/
def handleChannel (h : Handle) : Channel := ⟨h.ep, h.dir⟩

/-! ## The other parity and the other toggles -/

/-- The other parity: what a completion does to `sieOdd` (R232). -/
def otherPar : Par → Par
  | .even => .odd
  | .odd => .even

/-- NOT_BUF, the source's `operator!` on BufferToggle (R173). -/
def notBuf : BufferToggle → BufferToggle
  | .even => .odd
  | .odd => .even

/-- NOT_DATA, the source's `operator!` on DataToggle (R174). -/
def notData : DataToggle → DataToggle
  | .data0 => .data1
  | .data1 => .data0

/-! ## The STAT word (R96) -/

/-- The fields of a raw STAT byte (R190): bits 1:0 are ignored. -/
def statFields (raw : Byte) : StatFields :=
  { endp := raw.extractLsb' 4 4, tx := raw.extractLsb' 3 1, odd := raw.extractLsb' 2 1 }

/-- The raw STAT byte of three fields, reserved bits 0 (R191). -/
def statByte (f : StatFields) : Byte := f.endp ++ f.tx ++ f.odd ++ 0#2

/-- The handle a raw STAT byte names (R172, R192). -/
def statHandle (raw : Byte) : Handle :=
  ⟨(statFields raw).endp, Dir.ofBit (isSet (statFields raw).tx), Par.ofBit (isSet (statFields raw).odd)⟩

/-- The STAT word the SIE posts for an entry (R233). -/
def statWord (h : Handle) : Byte := statByte ⟨h.ep, bit1 h.dir.bit, bit1 h.par.bit⟩

/-! ## The SETUP packet (R97, R98) -/

/-- `recipient = b[4:0]` (R97, R120). -/
def reqRecipient (b : Byte) : BitVec 5 := b.extractLsb' 0 5

/-- `type = b[6:5]` (R97, R121). -/
def reqType (b : Byte) : BitVec 2 := b.extractLsb' 5 2

/-- `direction = b[7]` (R97, R122). -/
def reqDirection (b : Byte) : BitVec 1 := b.extractLsb' 7 1

/-- REQUEST_TYPE: the three fields packed into bmRequestType (R126). -/
def packRequestType (d : BitVec 1) (t : BitVec 2) (r : BitVec 5) : Byte := d ++ t ++ r

/-- The little-endian 16-bit field at offset `k` of a byte sequence (R61, R98). -/
def halfAt (s : List Byte) (k : Nat) : Half := byteAt s (k + 1) ++ byteAt s k

/-- The packet that eight bytes spell (R127). -/
def decodeSetup (s : List Byte) : SetupPacket :=
  { recipient := reqRecipient (byteAt s 0), type := reqType (byteAt s 0), direction := reqDirection (byteAt s 0),
    bRequest := byteAt s 1, wValue := halfAt s 2, wIndex := halfAt s 4, wLength := halfAt s 6 }

/-- The eight bytes of a packet (R128). -/
def encodeSetup (p : SetupPacket) : List Byte :=
  [packRequestType p.direction p.type p.recipient, p.bRequest,
   p.wValue.extractLsb' 0 8, p.wValue.extractLsb' 8 8, p.wIndex.extractLsb' 0 8, p.wIndex.extractLsb' 8 8,
   p.wLength.extractLsb' 0 8, p.wLength.extractLsb' 8 8]

/-- The recipients that have names (R123). -/
inductive Recipient where
  | device | interface | endpoint | other | reserved
  deriving DecidableEq, Repr

/-- The recipient a field names; 4..31 are reserved (R123). -/
def recipientName (r : BitVec 5) : Recipient :=
  match r.toNat with
  | 0 => .device
  | 1 => .interface
  | 2 => .endpoint
  | 3 => .other
  | _ => .reserved

/-- The request types (R124). -/
inductive RequestKind where
  | standard | class_ | vendor | reserved
  deriving DecidableEq, Repr

/-- The request type a field names (R124). -/
def requestKindName (t : BitVec 2) : RequestKind :=
  match t.toNat with
  | 0 => .standard
  | 1 => .class_
  | 2 => .vendor
  | _ => .reserved

/-- The directions of a request's data stage (R124): 0 out, host to device; 1 in, device to host. -/
inductive RequestDir where
  | out | in_
  deriving DecidableEq, Repr

/-- The direction a field names (R124). -/
def requestDirName (d : BitVec 1) : RequestDir :=
  match d.toNat with
  | 0 => .out
  | _ => .in_

/-- The data stage of a request: none where `wLength = 0` (R127), else in the direction its field names (R124). The
control-transfer state machine that acts on it is outside the block (R131); no operation reads it. -/
def dataStage (p : SetupPacket) : Option RequestDir :=
  if p.wLength = 0#16 then none else some (requestDirName p.direction)

/-- The USB 2.0 standard request codes by name (R132: SET_ADDRESS is the source's, the rest general knowledge; no
operation depends on them). -/
def standardRequestName (bRequest : Byte) : Option String :=
  match bRequest.toNat with
  | 0x00 => some "GET_STATUS"
  | 0x01 => some "CLEAR_FEATURE"
  | 0x03 => some "SET_FEATURE"
  | 0x05 => some "SET_ADDRESS"
  | 0x06 => some "GET_DESCRIPTOR"
  | 0x07 => some "SET_DESCRIPTOR"
  | 0x08 => some "GET_CONFIGURATION"
  | 0x09 => some "SET_CONFIGURATION"
  | 0x0A => some "GET_INTERFACE"
  | 0x0B => some "SET_INTERFACE"
  | 0x0C => some "SYNCH_FRAME"
  | _ => none

/-! ## Little-endian values (R60) -/

/-- The value of a byte sequence, lowest byte first, as a 32-bit word: `zext_32` of bytes 3..0 (R60, R256). -/
def leWord : List Byte → Word
  | [] => 0#32
  | b :: rest => (leWord rest <<< 8) ||| b.setWidth 32

/-- The first `n` bytes of a word, lowest first: byte `k` is `v[8k+7:8k]` (R15, R60). -/
def leBytes (n : Nat) (v : Word) : List Byte :=
  (List.range n).map fun k => v.extractLsb' (8 * k) 8

/-! ## Ranges of addresses -/

/-- The ranges of `n` bytes from `a` and of `m` bytes from `b` share a byte; a range of no bytes shares none. -/
def rangesMeet (a n b m : Nat) : Bool := 0 < n && 0 < m && a < b + m && b < a + n

/-- Address `x` lies in the range of `n` bytes from `a`. -/
def inRange (a n x : Nat) : Bool := a ≤ x && x < a + n

/-- The length of the BDT arena in bytes (R65). -/
def arenaBytes (cfg : Config) : Nat := 32 * cfg.numEp

/-- The range meets the BDT arena, bytes `BDT_BASE .. BDT_BASE + 32*NUM_EP - 1` (R65, R71). -/
def meetsArena (cfg : Config) (a n : Nat) : Bool := rangesMeet a n cfg.bdtBase (arenaBytes cfg)

/-- `rangeOK(addr, n)` of the SIE's buffer check (R219). -/
def rangeOK (cfg : Config) (addr n : Nat) : Bool :=
  n == 0 || (addr + n ≤ 2 ^ 32 && !meetsArena cfg addr n)

/-- The length of `span(h)`, the entry's buffer for the checks of R252: empty while `bc` or `addr` is unwritten
(R258). It starts at `addr` and is not wrapped at 2^32 (log entry 8). -/
def spanLength (e : BdtEntry) : Nat := if e.bcW && e.addrW then e.bc.toNat else 0

/-! ## The configuration (R8) -/

/-- The endpoint has entries (R33, R143). -/
def hasEndpoint (cfg : Config) (ep : Ep) : Bool := ep.toNat < cfg.numEp

/-- `EP_ENABLED(ep, dir)` (R8, R217). -/
def epEnabled (cfg : Config) (c : Channel) : Bool := hasEndpoint cfg c.ep && !cfg.disabled.contains c

/-- A power of two. -/
def isPowerOfTwo (n : Nat) : Bool := n != 0 && 2 ^ Nat.log2 n == n

/-- The parameters lie in their legal values (R8, R65); a launch with others is refused (R274). -/
def legalConfig (cfg : Config) : Bool :=
  1 ≤ cfg.numEp && cfg.numEp ≤ 16 && isPowerOfTwo cfg.bdtAlign && 32 ≤ cfg.bdtAlign &&
  cfg.bdtBase % cfg.bdtAlign == 0 && cfg.bdtBase + 32 * cfg.numEp ≤ 2 ^ 32 &&
  1 ≤ cfg.statDepth && 1 ≤ cfg.maxPacket && cfg.maxPacket ≤ 65535

end Sys2Proof.Machine
end

