-- ==== Sys2Proof/Machine/Ops.lean ====
section
/-! DEFINITION. The named operations over the state: the state's accessors and updates, shared memory (R60, R67),
raising a fault and refusing (R271, R272, R279), the checks that FW operations share (R143, R252, R253), the barrier
(R250), the write of a control byte (R144) and the SIE's completion (R230). -/

namespace Sys2Proof.Machine

/-- The outcome of an operation. -/
abbrev Result := Host.Outcome State Fault Refusal

/-! ## Shared memory (R47, R60, R67) -/

/-- What an address that is not listed reads as: nothing has written it, so it has no value (R67). -/
def Memory.unlisted : Option Byte := none

/-- The byte at an address, or `Unwritten`. -/
def Memory.read : Memory → Nat → Option Byte
  | [], _ => Memory.unlisted
  | (b, v) :: rest, a => if a = b then some v else Memory.read rest a

/-- Write one byte; the list stays in rising order of addresses. -/
def Memory.write : Memory → Nat → Byte → Memory
  | [], a, v => [(a, v)]
  | (b, w) :: rest, a, v =>
    if a < b then (a, v) :: (b, w) :: rest
    else if a = b then (a, v) :: rest
    else (b, w) :: Memory.write rest a v

/-- `MemWrite`: bytes at `a, a+1, …` in the order of the list (R15). -/
def Memory.writeBytes : Memory → Nat → List Byte → Memory
  | m, _, [] => m
  | m, a, v :: rest => Memory.writeBytes (Memory.write m a v) (a + 1) rest

/-- The canonical form: addresses strictly rising and inside the 32-bit space (R10), no entry equal to what an
unlisted address reads as. -/
abbrev Memory.wf (m : Memory) : Prop :=
  (m.map (fun c => c.1)).Pairwise (· < ·) ∧ ∀ c ∈ m, c.1 < 2 ^ 32 ∧ some c.2 ≠ Memory.unlisted

/-! ## Accessors and updates -/

/-- `bdt[h]` (R14). -/
def State.entry (s : State) (h : Handle) : BdtEntry := s.bdt[handleIndex h]

/-- `bdt[h] <- e` (R14). -/
def State.setEntry (s : State) (h : Handle) (e : BdtEntry) : State :=
  { s with bdt := s.bdt.set (handleIndex h) e }

/-- `sieOdd[ep][dir]` (R42). -/
def State.parity (s : State) (c : Channel) : Par := s.sieOdd[channelIndex c]

/-- `sieOdd[ep][dir] <- p` (R42). -/
def State.setParity (s : State) (c : Channel) (p : Par) : State :=
  { s with sieOdd := s.sieOdd.set (channelIndex c) p }

/-- `fwBuf[ep][dir]` (R44). -/
def State.bufToggle (s : State) (c : Channel) : BufferToggle := s.fwBuf[channelIndex c]

/-- `fwBuf[ep][dir] <- t` (R44). -/
def State.setBufToggle (s : State) (c : Channel) (t : BufferToggle) : State :=
  { s with fwBuf := s.fwBuf.set (channelIndex c) t }

/-- `fwData[ep][dir]` (R45). -/
def State.dataToggle (s : State) (c : Channel) : DataToggle := s.fwData[channelIndex c]

/-- `fwData[ep][dir] <- t` (R45). -/
def State.setDataToggle (s : State) (c : Channel) (t : DataToggle) : State :=
  { s with fwData := s.fwData.set (channelIndex c) t }

/-- `pc <- pc + 1` (R15, R32). -/
def State.advance (s : State) : State := { s with pc := s.pc + 1 }

/-- `out(v)` (R15, R31). -/
def State.out (s : State) (v : Value) : State := { s with outLog := s.outLog ++ [v] }

/-- `bus(e)` (R15, R49). -/
def State.bus (s : State) (e : BusEvent) : State := { s with busTrace := s.busTrace ++ [e] }

/-- `push_stat(b)` (R15, R233). -/
def State.pushStat (s : State) (b : Byte) : State := { s with statQ := s.statQ ++ [b] }

/-- The status queue becomes `q` (R195). -/
def State.setStatQ (s : State) (q : List Byte) : State := { s with statQ := q }

/-- `pending <- b` (R46). -/
def State.setPending (s : State) (b : Bool) : State := { s with pending := b }

/-- Shared memory becomes `m` (R47). -/
def State.setMem (s : State) (m : Memory) : State := { s with mem := m }

/-- `n` numbers of the draw counter are used up (R15; log entry 5). -/
def State.useDraws (s : State) (n : Nat) : State := { s with draws := s.draws + n }

/-- The turn at the head of the schedule is taken (R278). -/
def State.takeTurn (s : State) : State := { s with sched := s.sched.tail }

/-- `IRQ_XFER`, the interrupt request output: a level derived from the queue (R197, R276). -/
def State.irqXfer (s : State) : Bool := !s.statQ.isEmpty

/-- The entry is SIE-owned (R39). -/
def BdtEntry.isSie (e : BdtEntry) : Bool := ctrlIsSie e.ctrl

/-- The handles of the entries the block has, in index order (R33). -/
def State.handles (s : State) : List Handle := allHandles.filter fun h => hasEndpoint s.cfg h.ep

/-- The set of fault codes (R48). -/
def State.faultCodes (s : State) : List Fault := s.faults.map (·.code)

/-! ## Exceptions (R270 to R279) -/

/-- The fault is recorded, once (R271: no step removes it). -/
def State.addFault (s : State) (r : FaultRecord) : State :=
  { s with faults := if r ∈ s.faults then s.faults else s.faults ++ [r] }

/-- The refusal mark is set if it is empty (R272). -/
def State.setRefused (s : State) (q : Refusal) : State :=
  { s with refused := match s.refused with | some q' => some q' | none => some q }

/-- `raise Fault(kind)` (R15, R271, R279): the block's trap entry. The fault is recorded and nothing else changes: no
state is saved, control goes nowhere, and `pc` stays at the operation that faulted. There is no return (R280). -/
def raise (r : FaultRecord) (s : State) : Result := .next (s.addFault r)

/-- `refuse(kind)` (R15, R272): the mark is set and the step has no effect. -/
def refuse (q : Refusal) (s : State) : Result := .next (s.setRefused q)

/-- What a fault of an entry or toggle operation records (R273): the endpoint for a bad handle, the handle
otherwise, and `pc`. -/
def entryFault (f : Fault) (h : Handle) (s : State) : FaultRecord :=
  { code := f, detail := if f = .badHandle then .endpoint h.ep else .handle h, pc := some s.pc }

/-- What a fault of a memory operation on an address records (R273). -/
def addressFault (f : Fault) (a : Word) (s : State) : FaultRecord :=
  { code := f, detail := .address a, pc := some s.pc }

/-- What `FLT_SIE_UNWRITTEN` records (R273): the handle. -/
def sieFault (h : Handle) : FaultRecord :=
  { code := .sieUnwritten, detail := .handle h, pc := none }

/-! ## The checks of entry operations (R143) -/

/-- The two kinds of access of `fwEntryCheck`. -/
inductive AccessKind where
  | write | readField
  deriving DecidableEq, Repr

/-- The answers of `fwEntryCheck`. -/
inductive EntryCheck where
  | ok
  | sieOwned
  | fault (f : Fault)
  deriving DecidableEq, Repr

/-- `fwEntryCheck(h, kind)` (R143), its checks in priority order (R275). -/
def fwEntryCheck (h : Handle) (kind : AccessKind) (s : State) : EntryCheck :=
  if !hasEndpoint s.cfg h.ep then .fault .badHandle
  else if (s.entry h).isSie then
    match kind with
    | .write => .fault .ownViolation
    | .readField => .sieOwned
  else if (s.entry h).sync ≠ .acquired then .fault .unorderedAcquire
  else .ok

/-- An entry operation behind its check (R143): `k` is told whether the entry is SIE-owned. -/
def withEntry (h : Handle) (kind : AccessKind) (s : State) (k : Bool → Result) : Result :=
  match fwEntryCheck h kind s with
  | .fault f => raise (entryFault f h s) s
  | .sieOwned => k true
  | .ok => k false

/-- A toggle operation behind its check (R175 to R178). -/
def withChannel (c : Channel) (s : State) (k : Result) : Result :=
  if hasEndpoint s.cfg c.ep then k
  else raise { code := .badHandle, detail := .endpoint c.ep, pc := some s.pc } s

/-! ## Barrier and release (R144, R250, R253) -/

/-- The entry after a barrier: `Observed` becomes `Acquired` (R250). -/
def BdtEntry.afterBarrier (e : BdtEntry) : BdtEntry :=
  if e.sync = .observed then { e with sync := .acquired } else e

/-- A function applied to every element of a table. -/
def mapTable {α β : Type} {n : Nat} (f : α → β) (v : Vector α n) : Vector β n :=
  ⟨⟨v.toList.map f⟩, by simp⟩

/-- `barrierEffect()` (R250). -/
def State.barrierEffect (s : State) : State :=
  { s with pending := false, bdt := mapTable BdtEntry.afterBarrier s.bdt }

/-- `fwWriteCtrl(h, v)` on an entry that `fwEntryCheck(h, Write)` has passed (R144): a release needs `pending` false
(R253), and any other write sets it. -/
def fwWriteCtrl (h : Handle) (v : Byte) (s : State) : Except Fault State :=
  let written := s.setEntry h { s.entry h with ctrl := v, ctrlW := true }
  if ctrlIsSie v then
    if s.pending then .error .unorderedRelease else .ok written
  else .ok (written.setPending true)

/-- The write of `bc` (R145, R146). -/
def State.writeBc (s : State) (h : Handle) (bc : Half) : State :=
  s.setEntry h { s.entry h with bc := bc, bcW := true }

/-- The write of `addr` (R145, R147). -/
def State.writeAddr (s : State) (h : Handle) (addr : Word) : State :=
  s.setEntry h { s.entry h with addr := addr, addrW := true }

/-! ## The checks of memory operations (R252) -/

/-- The three kinds of access of `fwMemCheck`. -/
inductive MemKind where
  | load | store | fetch
  deriving DecidableEq, Repr

/-- `span(h)` meets the range of `n` bytes from `a` (R252, R258). -/
def spanMeets (e : BdtEntry) (a n : Nat) : Bool := rangesMeet e.addr.toNat (spanLength e) a n

/-- A store would touch a buffer the SIE owns (R252). -/
def storeHitsSie (s : State) (a n : Nat) : Bool :=
  s.handles.any fun h => spanMeets (s.entry h) a n && (s.entry h).isSie

/-- The first entry in index order whose buffer meets the range and that FW has not acquired (R252, R254). Which of
several the fault records is log entry 7. -/
def unacquiredAt (s : State) (a n : Nat) : Option Handle :=
  s.handles.find? fun h =>
    spanMeets (s.entry h) a n && !(s.entry h).isSie && (s.entry h).sync != .acquired

/-- The byte lies in a buffer the SIE may be writing, so that a load returns a draw for it: the set `D` of R252. -/
def drawnByte (s : State) (a : Nat) : Bool :=
  s.handles.any fun h =>
    (s.entry h).isSie && h.dir == .rx && inRange (s.entry h).addr.toNat (spanLength (s.entry h)) a

/-- The answers of `fwMemCheck`. -/
inductive MemCheck where
  | ok
  | fault (r : FaultRecord)
  | refused (q : Refusal)
  deriving DecidableEq, Repr

/-- `fwMemCheck(addr, n, kind)` (R252), its checks in priority order (R275). -/
def fwMemCheck (addr : Word) (n : Nat) (kind : MemKind) (s : State) : MemCheck :=
  if kind ≠ .fetch ∧ 1 < n ∧ addr.toNat % n ≠ 0 then .fault (addressFault .misaligned addr s)
  else if 2 ^ 32 < addr.toNat + n then .refused .addrWrap
  else if meetsArena s.cfg addr.toNat n then .refused .arenaAccess
  else if kind = .store ∧ storeHitsSie s addr.toNat n then .fault (addressFault .ownViolation addr s)
  else
    match unacquiredAt s addr.toNat n with
    | some h => .fault (entryFault .unorderedAcquire h s)
    | none => .ok

/-- A memory operation behind its check (R252). -/
def withMem (addr : Word) (n : Nat) (kind : MemKind) (s : State) (k : Result) : Result :=
  match fwMemCheck addr n kind s with
  | .fault r => raise r s
  | .refused q => refuse q s
  | .ok => k

/-! ## Reading memory (R15, R67) -/

/-- The byte at `a`, or draw number `k` of this step when nothing has written it (R67). -/
def State.memByte (s : State) (a k : Nat) : Byte :=
  (s.mem.read a).getD (Config.draw 8 (s.draws + k))

/-- The bytes the SIE reads from `a` on (R228). -/
def State.dmaBytes (s : State) (a n : Nat) : List Byte :=
  (List.range n).map fun k => s.memByte (a + k) k

/-- The bytes a FW load reads from `a` on: those of a SIE-owned receive buffer are draws (R256, R257). -/
def State.loadBytes (s : State) (a n : Nat) : List Byte :=
  (List.range n).map fun k =>
    if drawnByte s (a + k) then Config.draw 8 (s.draws + k) else s.memByte (a + k) k

/-- MEM_STORE of `n` bytes (R255). -/
def memStore (n : Nat) (v addr : Word) (s : State) : Result :=
  withMem addr n .store s
    (.next ((s.setMem (s.mem.writeBytes addr.toNat (leBytes n v))).setPending true).advance)

/-- MEM_LOAD of `n` bytes (R256). -/
def memLoad (n : Nat) (addr : Word) (s : State) : Result :=
  withMem addr n .load s
    (.next (((s.out (.u32 (leWord (s.loadBytes addr.toNat n)))).useDraws n).advance))

/-! ## The SIE's completion (R230) -/

/-- `complete(h, tp, n)` (R230 to R233). -/
def State.complete (s : State) (h : Handle) (tp : BitVec 4) (n : Half) : State :=
  let e := s.entry h
  let s1 := s.setEntry h { e with ctrl := completedCtrl e.ctrl tp, bc := n, bcW := true, sync := .completed }
  (s1.setParity (handleChannel h) (otherPar (s1.parity (handleChannel h)))).pushStat (statWord h)

end Sys2Proof.Machine
end

