-- ==== Sys2Proof/Machine/Codec.lean ====
section
/-! DEFINITION. The combinational operations: the request codec (`40_request_codec.md`, R120 to R128) and the views
of a control byte (R140 to R142). They read no state but their operands and write only `outLog` and `pc`; nothing is
validated (R130). -/

namespace Sys2Proof.Machine

/-- REQ_RECIPIENT (R120). -/
def execReqRecipient (b : Byte) (s : State) : Result :=
  .next (s.out (.u5 (reqRecipient b))).advance

/-- REQ_TYPE (R121). -/
def execReqType (b : Byte) (s : State) : Result :=
  .next (s.out (.u2 (reqType b))).advance

/-- REQ_DIRECTION (R122). -/
def execReqDirection (b : Byte) (s : State) : Result :=
  .next (s.out (.u1 (reqDirection b))).advance

/-- REQUEST_TYPE (R126). -/
def execRequestType (d : BitVec 1) (t : BitVec 2) (r : BitVec 5) (s : State) : Result :=
  .next (s.out (.u8 (packRequestType d t r))).advance

/-- SETUP_DECODE (R127). -/
def execSetupDecode (bytes : List Byte) (s : State) : Result :=
  .next (s.out (.setup (decodeSetup bytes))).advance

/-- SETUP_ENCODE (R128). -/
def execSetupEncode (p : SetupPacket) (s : State) : Result :=
  .next (s.out (.bytes (encodeSetup p))).advance

/-- CTRL_SETUP_VIEW (R140). -/
def execCtrlSetupView (c : Byte) (s : State) : Result :=
  .next (s.out (.setupView (setupView c))).advance

/-- CTRL_RESULT_VIEW (R141). -/
def execCtrlResultView (c : Byte) (s : State) : Result :=
  .next (s.out (.resultView (resultView c))).advance

/-- CTRL_PACK (R142). -/
def execCtrlPack (f : CtrlBits) (s : State) : Result :=
  .next (s.out (.u8 (packCtrl f))).advance

end Sys2Proof.Machine
end

