-- ==== Sys2Proof/Machine/Entry.lean ====
section
/-! DEFINITION. The BDT entry operations (`41_bdt_entry.md`): mutators R145 to R148 and readers R149 to R151. -/

namespace Sys2Proof.Machine

/-- BDT_INIT (R145): `bc`, `addr`, an implicit barrier, then the control byte, in one operation. -/
def execBdtInit (h : Handle) (ctrl : Byte) (bc : Half) (addr : Word) (s : State) : Result :=
  withEntry h .write s fun _ =>
    match fwWriteCtrl h ctrl (((s.writeBc h bc).writeAddr h addr).barrierEffect) with
    | .ok s' => .next s'.advance
    | .error f => raise (entryFault f h s) s

/-- BDT_SET_BC (R146). -/
def execBdtSetBc (h : Handle) (bc : Half) (s : State) : Result :=
  withEntry h .write s fun _ => .next ((s.writeBc h bc).setPending true).advance

/-- BDT_SET_ADDR (R147). -/
def execBdtSetAddr (h : Handle) (addr : Word) (s : State) : Result :=
  withEntry h .write s fun _ => .next ((s.writeAddr h addr).setPending true).advance

/-- BDT_SET_CTRL (R148). -/
def execBdtSetCtrl (h : Handle) (ctrl : Byte) (s : State) : Result :=
  withEntry h .write s fun _ =>
    match fwWriteCtrl h ctrl s with
    | .ok s' => .next s'.advance
    | .error f => raise (entryFault f h s) s

/-- The entry after BDT_READ_CTRL has seen it (R149): a handback read as MCU-owned becomes `Observed`. -/
def BdtEntry.afterReadCtrl (e : BdtEntry) : BdtEntry :=
  if !e.isSie && e.sync == .completed then { e with sync := .observed } else e

/-- BDT_READ_CTRL (R149): allowed in every ownership state. -/
def execBdtReadCtrl (h : Handle) (s : State) : Result :=
  if hasEndpoint s.cfg h.ep then
    let e := s.entry h
    .next ((((s.setEntry h e.afterReadCtrl).out (.u8 (readableCtrl e (Config.draw 7 s.draws)))).useDraws 1).advance)
  else raise (entryFault .badHandle h s) s

/-- BDT_READ_BC (R150): a draw while the entry is SIE-owned or `bc` is unwritten. -/
def execBdtReadBc (h : Handle) (s : State) : Result :=
  withEntry h .readField s fun sieOwned =>
    let e := s.entry h
    let v := if sieOwned || !e.bcW then Config.draw 16 s.draws else e.bc
    .next (((s.out (.u16 v)).useDraws 1).advance)

/-- BDT_READ_ADDR (R151): a draw while the entry is SIE-owned or `addr` is unwritten. -/
def execBdtReadAddr (h : Handle) (s : State) : Result :=
  withEntry h .readField s fun sieOwned =>
    let e := s.entry h
    let v := if sieOwned || !e.addrW then Config.draw 32 s.draws else e.addr
    .next (((s.out (.u32 v)).useDraws 1).advance)

end Sys2Proof.Machine
end

