-- ==== Sys2Proof/Machine/MemoryOps.lean ====
section
/-! DEFINITION. BARRIER (R250) and FW's memory operations (`45_ordering_and_memory_ops.md`, R255 to R257). -/

namespace Sys2Proof.Machine

/-- BARRIER (R250). -/
def execBarrier (s : State) : Result :=
  .next s.barrierEffect.advance

/-- MEM_STORE of one byte (R255): `v[7:0]`. -/
def execMemStore1 (v : BitVec 8) (addr : Word) (s : State) : Result :=
  memStore 1 (v.setWidth 32) addr s

/-- MEM_STORE of two bytes (R255): `v[15:0]`. -/
def execMemStore2 (v : BitVec 16) (addr : Word) (s : State) : Result :=
  memStore 2 (v.setWidth 32) addr s

/-- MEM_STORE of four bytes (R255). -/
def execMemStore4 (v : BitVec 32) (addr : Word) (s : State) : Result :=
  memStore 4 v addr s

/-- MEM_LOAD of one byte (R256). -/
def execMemLoad1 (addr : Word) (s : State) : Result :=
  memLoad 1 addr s

/-- MEM_LOAD of two bytes (R256). -/
def execMemLoad2 (addr : Word) (s : State) : Result :=
  memLoad 2 addr s

/-- MEM_LOAD of four bytes (R256). -/
def execMemLoad4 (addr : Word) (s : State) : Result :=
  memLoad 4 addr s

/-- SETUP_FETCH (R257): eight bytes, no alignment needed, decoded as SETUP_DECODE decodes them. -/
def execSetupFetch (addr : Word) (s : State) : Result :=
  withMem addr 8 .fetch s
    (.next (((s.out (.setup (decodeSetup (s.loadBytes addr.toNat 8)))).useDraws 8).advance))

end Sys2Proof.Machine
end

