-- ==== Sys2Proof/Machine/Sie.lean ====
section
/-! DEFINITION. The SIE's transactions (`44_sie_engine.md`): the checks in the order of R216, the receive and the
transmit part, and the three operations R213 to R215. A transaction moves no `pc`. -/

namespace Sys2Proof.Machine

/-- The direction of a token's channel (R211). -/
def tokDir : Tok → Dir
  | .setup => .rx
  | .out => .rx
  | .inn => .tx

/-- The SETUP laxity of R237: the host's choice, which counts for a SETUP only. -/
def ignoresStallAndToggle (tok : Tok) (lax : Bool) : Bool := tok == .setup && lax

/-- The channel is answered at all (R217): its endpoint has entries and the channel is enabled. -/
def sieAnswers (tok : Tok) (ep : Ep) (s : State) : Bool := epEnabled s.cfg ⟨ep, tokDir tok⟩

/-- The entry a token selects (R212): the parity pointer of its channel says which, and the other parity is never
used instead. -/
def sieHandle (tok : Tok) (ep : Ep) (s : State) : Handle :=
  ⟨ep, tokDir tok, s.parity ⟨ep, tokDir tok⟩⟩

/-- The refusals and the fault that R216 checks before data moves, in its order: KEEP and NINC (R221), the reserved
control bits (R222), unwritten fields (R223), the buffer range (R219). -/
def sieGuard (h : Handle) (s : State) (k : Result) : Result :=
  let e := s.entry h
  if isSet (ctrlKeep e.ctrl) || isSet (ctrlNinc e.ctrl) then refuse .keepNinc s
  else if ctrlRsvd e.ctrl ≠ 0#2 then refuse .reservedCtrl s
  else if !e.bcW || !e.addrW then raise (sieFault h) s
  else if !rangeOK s.cfg e.addr.toNat e.bc.toNat then refuse .bufferRange s
  else k

/-- Data-toggle synchronisation discards the packet (R226, R237). -/
def dtsMismatch (tok : Tok) (pid : DataPid) (lax : Bool) (e : BdtEntry) : Bool :=
  isSet (ctrlDts e.ctrl) && pid.toggle != isSet (ctrlData01 e.ctrl) && !ignoresStallAndToggle tok lax

/-- The receive part of R216: overflow (R224), the discarding ACK (R226), the receive DMA (R227), completion. -/
def sieReceive (tok : Tok) (pid : DataPid) (payload : List Byte) (lax : Bool) (h : Handle) (s : State) : Result :=
  let e := s.entry h
  if e.bc.toNat < payload.length then refuse .overflow s
  else if dtsMismatch tok pid lax e then .next (s.bus (.received tok h.ep pid payload false))
  else
    .next (((s.setMem (s.mem.writeBytes e.addr.toNat payload)).bus (.received tok h.ep pid payload true)).complete h
      tok.pid (BitVec.ofNat 16 payload.length))

/-- The transmit part of R216: the count's limit (R225), the transmit DMA and its PID (R228), and completion if the
host acknowledges (R229). -/
def sieTransmit (ack : Bool) (h : Handle) (s : State) : Result :=
  let e := s.entry h
  if s.cfg.maxPacket < e.bc.toNat then refuse .bcLimit s
  else
    let bytes := s.dmaBytes e.addr.toNat e.bc.toNat
    let sent := (s.bus (.sent h.ep (DataPid.ofBit (isSet (ctrlData01 e.ctrl))) bytes ack)).useDraws e.bc.toNat
    .next (if ack then sent.complete h Tok.inn.pid e.bc else sent)

/-- The data stage of R216, by the direction of the token's channel. -/
def sieData (tok : Tok) (pid : DataPid) (payload : List Byte) (ack lax : Bool) (h : Handle) (s : State) : Result :=
  match tokDir tok with
  | .rx => sieReceive tok pid payload lax h s
  | .tx => sieTransmit ack h s

/-- `sieTransaction` (R216): no answer (R217), NAK for a full queue or an MCU-owned entry (R218), STALL (R220), then
the guards, then data. -/
def sieTransaction (tok : Tok) (ep : Ep) (pid : DataPid) (payload : List Byte) (ack lax : Bool) (s : State) :
    Result :=
  if !sieAnswers tok ep s then .next (s.bus (.answer tok ep .noResponse))
  else if s.statQ.length = s.cfg.statDepth then .next (s.bus (.answer tok ep .nak))
  else
    let h := sieHandle tok ep s
    let e := s.entry h
    if !e.isSie then .next (s.bus (.answer tok ep .nak))
    else if isSet (ctrlStall e.ctrl) && !ignoresStallAndToggle tok lax then .next (s.bus (.answer tok ep .stall))
    else
      sieGuard h s (sieData tok pid payload ack lax h s)

/-- SIE_SETUP (R213). -/
def execSieSetup (ep : Ep) (pid : DataPid) (payload : List Byte) (lax : Bool) (s : State) : Result :=
  sieTransaction .setup ep pid payload false lax s

/-- SIE_OUT (R214). -/
def execSieOut (ep : Ep) (pid : DataPid) (payload : List Byte) (s : State) : Result :=
  sieTransaction .out ep pid payload false false s

/-- SIE_IN (R215). -/
def execSieIn (ep : Ep) (ack : Bool) (s : State) : Result :=
  sieTransaction .inn ep .data0 [] ack false s

end Sys2Proof.Machine
end

