-- ==== Sys2Proof/Machine/Status.lean ====
section
/-! DEFINITION. The status operations (`43_status_decode.md`): decode, encode and lookup R190 to R192, and the
consumer of the status queue R195. -/

namespace Sys2Proof.Machine

/-- STAT_POP (R195): the oldest word leaves the queue, or the marker `EMPTY` is returned. -/
def execStatPop (s : State) : Result :=
  match s.statQ with
  | [] => .next (s.out .empty).advance
  | b :: rest => .next ((s.out (.u8 b)).setStatQ rest).advance

/-- STAT_DECODE (R190): `endp` is not checked against `NUM_EP` (R194). -/
def execStatDecode (raw : Byte) (s : State) : Result :=
  .next (s.out (.stat (statFields raw))).advance

/-- STAT_ENCODE (R191). -/
def execStatEncode (endp : Ep) (tx odd : BitVec 1) (s : State) : Result :=
  .next (s.out (.u8 (statByte ⟨endp, tx, odd⟩))).advance

/-- STAT_TO_HANDLE (R192). -/
def execStatToHandle (raw : Byte) (s : State) : Result :=
  .next (s.out (.handle (statHandle raw))).advance

end Sys2Proof.Machine
end

