-- ==== Sys2Proof/Machine/Toggles.lean ====
section
/-! DEFINITION. The toggle operations (`42_endpoint_bdt_set.md`): the pure flips R173 and R174, FW's toggle state
R175 to R178, and the SIE's odd reset R179. -/

namespace Sys2Proof.Machine

/-- NOT_BUF (R173). -/
def execNotBuf (t : BufferToggle) (s : State) : Result :=
  .next (s.out (.buf (notBuf t))).advance

/-- NOT_DATA (R174). -/
def execNotData (t : DataToggle) (s : State) : Result :=
  .next (s.out (.data (notData t))).advance

/-- FLIP_BUF (R175). -/
def execFlipBuf (ep : Ep) (dir : Dir) (s : State) : Result :=
  withChannel ⟨ep, dir⟩ s (.next (s.setBufToggle ⟨ep, dir⟩ (notBuf (s.bufToggle ⟨ep, dir⟩))).advance)

/-- FLIP_DATA (R176). -/
def execFlipData (ep : Ep) (dir : Dir) (s : State) : Result :=
  withChannel ⟨ep, dir⟩ s (.next (s.setDataToggle ⟨ep, dir⟩ (notData (s.dataToggle ⟨ep, dir⟩))).advance)

/-- CLEAR_TOGGLES (R177). -/
def execClearToggles (ep : Ep) (dir : Dir) (s : State) : Result :=
  withChannel ⟨ep, dir⟩ s
    (.next ((s.setDataToggle ⟨ep, dir⟩ .data0).setBufToggle ⟨ep, dir⟩ .even).advance)

/-- READ_TOGGLES (R178). -/
def execReadToggles (ep : Ep) (dir : Dir) (s : State) : Result :=
  withChannel ⟨ep, dir⟩ s
    (.next (s.out (.toggles (s.bufToggle ⟨ep, dir⟩) (s.dataToggle ⟨ep, dir⟩))).advance)

/-- ODD_RESET (R179): every parity pointer of the SIE becomes EVEN. -/
def execOddReset (s : State) : Result :=
  .next { s with sieOdd := Vector.replicate 32 .even, pc := s.pc + 1 }

end Sys2Proof.Machine
end

