-- ==== Sys2Proof/Machine/Dispatch.lean ====
section
/-! DEFINITION. The dispatch: one arm per row of spec/opcode_table.json. -/

namespace Sys2Proof.Machine

def exec (i : Instr) (s : State) : Host.Outcome State Fault Refusal :=
  match i with
  | .bdtInit h ctrl bc addr => Sys2Proof.Machine.execBdtInit h ctrl bc addr s
  | .bdtSetBc h bc => Sys2Proof.Machine.execBdtSetBc h bc s
  | .bdtSetAddr h addr => Sys2Proof.Machine.execBdtSetAddr h addr s
  | .bdtSetCtrl h ctrl => Sys2Proof.Machine.execBdtSetCtrl h ctrl s
  | .bdtReadCtrl h => Sys2Proof.Machine.execBdtReadCtrl h s
  | .bdtReadBc h => Sys2Proof.Machine.execBdtReadBc h s
  | .bdtReadAddr h => Sys2Proof.Machine.execBdtReadAddr h s
  | .flipBuf ep dir => Sys2Proof.Machine.execFlipBuf ep dir s
  | .flipData ep dir => Sys2Proof.Machine.execFlipData ep dir s
  | .clearToggles ep dir => Sys2Proof.Machine.execClearToggles ep dir s
  | .readToggles ep dir => Sys2Proof.Machine.execReadToggles ep dir s
  | .oddReset => Sys2Proof.Machine.execOddReset s
  | .statPop => Sys2Proof.Machine.execStatPop s
  | .statDecode raw => Sys2Proof.Machine.execStatDecode raw s
  | .statEncode endp tx odd => Sys2Proof.Machine.execStatEncode endp tx odd s
  | .statToHandle raw => Sys2Proof.Machine.execStatToHandle raw s
  | .reqRecipient b => Sys2Proof.Machine.execReqRecipient b s
  | .reqType b => Sys2Proof.Machine.execReqType b s
  | .reqDirection b => Sys2Proof.Machine.execReqDirection b s
  | .requestType d t r => Sys2Proof.Machine.execRequestType d t r s
  | .setupDecode bytes => Sys2Proof.Machine.execSetupDecode bytes s
  | .setupEncode p => Sys2Proof.Machine.execSetupEncode p s
  | .ctrlSetupView c => Sys2Proof.Machine.execCtrlSetupView c s
  | .ctrlResultView c => Sys2Proof.Machine.execCtrlResultView c s
  | .ctrlPack f => Sys2Proof.Machine.execCtrlPack f s
  | .notBuf t => Sys2Proof.Machine.execNotBuf t s
  | .notData t => Sys2Proof.Machine.execNotData t s
  | .barrier => Sys2Proof.Machine.execBarrier s
  | .memStore1 v addr => Sys2Proof.Machine.execMemStore1 v addr s
  | .memStore2 v addr => Sys2Proof.Machine.execMemStore2 v addr s
  | .memStore4 v addr => Sys2Proof.Machine.execMemStore4 v addr s
  | .memLoad1 addr => Sys2Proof.Machine.execMemLoad1 addr s
  | .memLoad2 addr => Sys2Proof.Machine.execMemLoad2 addr s
  | .memLoad4 addr => Sys2Proof.Machine.execMemLoad4 addr s
  | .setupFetch addr => Sys2Proof.Machine.execSetupFetch addr s
  | .sieSetup ep pid payload lax => Sys2Proof.Machine.execSieSetup ep pid payload lax s
  | .sieOut ep pid payload => Sys2Proof.Machine.execSieOut ep pid payload s
  | .sieIn ep ack => Sys2Proof.Machine.execSieIn ep ack s

end Sys2Proof.Machine
end

