-- ==== Sys2Proof/Machine/Reset.lean ====
section
/-! DEFINITION. Block reset (R51, R300, R301) and the launch of a run (R8, R65, R303). -/

namespace Sys2Proof.Machine

/-- An entry at a block reset (R51): MCU-owned, its fields unwritten, `Acquired`. The reserved byte is none of the
state R51 resets, so it stays (log entry 1). -/
def BdtEntry.blockReset (e : BdtEntry) : BdtEntry := { BdtEntry.reset with rsvd := e.rsvd }

/-- Block reset (R300): every piece of state of R51 at its reset value, in one step; memory, the logs, the faults,
the refusal and `pc` keep their values (R301). -/
def blockReset (s : State) : State :=
  { s with
    bdt := mapTable BdtEntry.blockReset s.bdt
    sieOdd := Vector.replicate 32 .even
    statQ := []
    fwBuf := Vector.replicate 32 .even
    fwData := Vector.replicate 32 .data0
    pending := false }

/-- Memory with the contents `MEM_INIT` (R8, R47), given as the written bytes. -/
def memOf (init : List (Word × Byte)) : Memory :=
  init.foldl (fun m c => m.write c.1.toNat c.2) []

/-- The launch (R303): power-on with the parameters `cfg`, the memory contents `MEM_INIT`, and FW's operation list.
Parameters outside their legal values are refused (R8, R65, R274). -/
def State.launch (cfg : Config) (memInit : List (Word × Byte)) (prog : List Record) : State :=
  { State.reset with
    cfg := cfg
    mem := memOf memInit
    prog := prog
    refused := if legalConfig cfg then none else some .config }

end Sys2Proof.Machine
end

