-- ==== Sys2Proof/Machine/Fetch.lean ====
section
/-! DEFINITION. What the machine does next (R7, R278): whose turn it is, and the operation that turn brings. -/

namespace Sys2Proof.Machine

/-- What a state does next: run an operation in a state, or come to an outcome without one. -/
inductive Action where
  | run (i : Instr) (s : State)
  | done (r : Result)

/-- FW's next operation: the record at `pc` of its list (R32). At the end of the list FW has none, and its turn passes
with no effect (R314, log entry 4). A record that spells no operation is refused before anything else (R105, R275). -/
def fwAction (s : State) : Action :=
  match s.prog[s.pc]? with
  | none => .done (.next s)
  | some r =>
    match decode (.command r) with
    | .ok i => .run i s
    | .error _ => .done (refuse .badCommand s)

/-- The SIE's transaction for a host step (R104, R210). A packet that is no token of R104 gets no answer and makes no
step (R106): the turn passes with no effect (log entry 9). -/
def hostAction (h : HostStep) (s : State) : Action :=
  match decode (.host h) with
  | .ok i => .run i s
  | .error _ => .done (.next s)

/-- The next turn (R278): the head of the schedule, or FW's when the schedule is empty. A faulted or refused state
does nothing more (R277): it answers its first fault, or its refusal. -/
def nextAction (s : State) : Action :=
  match s.faults with
  | r :: _ => .done (.fault r.code)
  | [] =>
    match s.refused with
    | some q => .done (.refused q)
    | none =>
      match s.sched with
      | [] => fwAction s
      | .fw :: _ => fwAction s.takeTurn
      | .host h :: _ => hostAction h s.takeTurn
      | .blockReset :: _ => .done (.next (blockReset s.takeTurn))

/-- The operation list with `r` at position `pc`; a list that ends before it is filled up with all-zero records, which
spell no operation. -/
def placeRecord (prog : List Record) (pc : Nat) (r : Record) : List Record :=
  prog.take pc ++ List.replicate (pc - prog.length) ⟨0#32, 0#32, 0#32⟩ ++ [r] ++ prog.drop (pc + 1)

/-- The state with an operation placed where the next step finds it: a command record at `pc` with FW's turn, or a
host step at the head of the schedule (log entry 6). -/
def placeNext (s : State) : Encoded → State
  | .command r => { s with prog := placeRecord s.prog s.pc r, sched := .fw :: s.sched }
  | .host h => { s with sched := .host h :: s.sched }

end Sys2Proof.Machine
end

