-- ==== Sys2Proof/Machine/Step.lean ====
section
/-! DEFINITION. The step of the machine, and the host's way to place one instruction for it. -/

namespace Sys2Proof.Machine

/-- One step (R74, R278): one FW operation, one SIE transaction or one block reset, taken whole; of a faulted or
refused state, its reason (R277). -/
def step (s : State) : Host.Outcome State Fault Refusal :=
  match nextAction s with
  | .run i s' => exec i s'
  | .done r => r

/-- `s` with the operation whose bits are `w`, numbered as spec/opcode_table.json numbers them, placed where `step`
takes its next operation from. -/
def State.withFetchWord (s : State) (nbits w : Nat) : State := placeNext s (Encoded.ofTable nbits w)

end Sys2Proof.Machine
end

