-- ==== Sys2Proof/Safety.lean ====
section
/-! DEFINITION. The terms claims are stated in: good states and good ends of a run (R271, R272, R314), ownership and
access as the rules word them, ranges of bytes, the readiness of a transaction, and the invariant of the block. -/

namespace Sys2Proof

open Sys2Proof.Machine

/-! ## Runs -/

/-- No fault is recorded and no step was refused: the run still has meaning (R271, R272, R277). -/
def Safe (s : State) : Prop := s.faults = [] ∧ s.refused = none

/-- FW's run has ended successfully (R314): `pc` is the length of its list, with no fault and no refusal. -/
def FwDone (s : State) : Prop := Safe s ∧ s.pc = s.prog.length

/-- It is FW's turn: the schedule says so, or is empty (R278). -/
def FwTurn (s : State) : Prop := s.sched = [] ∨ ∃ rest, s.sched = .fw :: rest

/-- The state after a list of operations, if each of them answers a next state. -/
def runOps : List Instr → State → Option State
  | [], s => some s
  | i :: is, s =>
    match exec i s with
    | .next t => runOps is t
    | .fault _ => none
    | .refused _ => none

/-- The two states agree but for the model's own counter of draws. -/
def SameButDraws (t u : State) : Prop := t = { u with draws := t.draws }

/-! ## Endpoints, ownership, access -/

/-- The endpoint has entries, `ep < NUM_EP` (R33). -/
def HasEp (s : State) (ep : Ep) : Prop := ep.toNat < s.cfg.numEp

/-- `own == SIE`: bit 7 of the control byte is 1 (R39). -/
def OwnedBySie (e : BdtEntry) : Prop := e.ctrl[7] = true

/-- `own == MCU`: bit 7 of the control byte is 0 (R39). -/
def OwnedByMcu (e : BdtEntry) : Prop := e.ctrl[7] = false

/-- The condition under which R143 lets an entry operation write or read a field of `h`. -/
structure MayAccess (s : State) (h : Handle) : Prop where
  exists_   : HasEp s h.ep
  mcuOwned  : OwnedByMcu (s.entry h)
  isAcquired : (s.entry h).sync = .acquired

/-! ## Bytes -/

/-- Address `x` lies in the BDT arena (R65). -/
def ArenaByte (cfg : Config) (x : Nat) : Prop := cfg.bdtBase ≤ x ∧ x < cfg.bdtBase + 32 * cfg.numEp

/-- Address `x` lies in the buffer `span(h)` of an entry (R258). -/
def BufferByte (e : BdtEntry) (x : Nat) : Prop :=
  e.bcW = true ∧ e.addrW = true ∧ e.addr.toNat ≤ x ∧ x < e.addr.toNat + e.bc.toNat

/-- Some byte of the `n` bytes from `a` satisfies `P`. -/
def Touches (a n : Nat) (P : Nat → Prop) : Prop := ∃ x, a ≤ x ∧ x < a + n ∧ P x

/-- A FW load of address `x` returns a draw because the SIE may be writing there (the set `D` of R252). -/
def SieMayWrite (s : State) (x : Nat) : Prop :=
  ∃ h, HasEp s h.ep ∧ OwnedBySie (s.entry h) ∧ h.dir = .rx ∧ BufferByte (s.entry h) x

/-- The range touches the buffer of a SIE-owned entry (R252). -/
def TouchesSieBuffer (s : State) (a n : Nat) : Prop :=
  ∃ h, HasEp s h.ep ∧ OwnedBySie (s.entry h) ∧ Touches a n (BufferByte (s.entry h))

/-- Entry `h` is MCU-owned and not acquired, and the range touches its buffer (R252, R254). -/
def UnacquiredBuffer (s : State) (a n : Nat) (h : Handle) : Prop :=
  HasEp s h.ep ∧ OwnedByMcu (s.entry h) ∧ (s.entry h).sync ≠ .acquired ∧ Touches a n (BufferByte (s.entry h))

/-! ## Transactions -/

/-- The SIE operation of a token with the host's choices (R213 to R215). -/
def sieInstr (tok : Tok) (ep : Ep) (pid : DataPid) (payload : List Byte) (ack lax : Bool) : Instr :=
  match tok with
  | .setup => .sieSetup ep pid payload lax
  | .out => .sieOut ep pid payload
  | .inn => .sieIn ep ack

/-- The channel of a token is answered: the endpoint exists and the channel is enabled (R217). -/
def Answered (s : State) (tok : Tok) (ep : Ep) : Prop :=
  HasEp s ep ∧ (⟨ep, if tok = .inn then .tx else .rx⟩ : Channel) ∉ s.cfg.disabled

/-- The entry `h` a token selects (R211, R212): its channel's, of the parity `sieOdd` says. -/
def Selects (s : State) (tok : Tok) (ep : Ep) (h : Handle) : Prop :=
  h.ep = ep ∧ h.dir = (if tok = .inn then .tx else .rx) ∧ h.par = s.parity ⟨ep, h.dir⟩

/-- The token is answered, the status queue has room, and the selected entry `h` is SIE-owned (R217, R218). -/
structure Engaged (s : State) (tok : Tok) (ep : Ep) (h : Handle) : Prop where
  answered : Answered s tok ep
  room     : s.statQ.length ≠ s.cfg.statDepth
  selected : Selects s tok ep h
  sieOwned : OwnedBySie (s.entry h)

/-- The host lets this SETUP through a stall and a toggle mismatch (R237). -/
def Lax (tok : Tok) (lax : Bool) : Prop := tok = .setup ∧ lax = true

/-- The buffer of the entry does not pass 2^32 and does not touch the arena (R219). -/
def RangeFits (s : State) (e : BdtEntry) : Prop :=
  e.bc.toNat = 0 ∨
    (e.addr.toNat + e.bc.toNat ≤ 2 ^ 32 ∧ ¬ Touches e.addr.toNat e.bc.toNat (ArenaByte s.cfg))

/-- Every check of R216 before the data stage has passed for entry `h`. -/
structure Cleared (s : State) (tok : Tok) (ep : Ep) (lax : Bool) (h : Handle) : Prop where
  engaged    : Engaged s tok ep h
  notStalled : (s.entry h).ctrl[2] = false ∨ Lax tok lax
  noKeep     : (s.entry h).ctrl[5] = false
  noNinc     : (s.entry h).ctrl[4] = false
  rsvdZero   : (s.entry h).ctrl.toNat % 4 = 0
  bcWritten  : (s.entry h).bcW = true
  addrWritten : (s.entry h).addrW = true
  rangeFits  : RangeFits s (s.entry h)

/-- DTS is on and the toggle of the data PID differs from the entry's `data0_1` (R226). -/
def ToggleMismatch (e : BdtEntry) (pid : DataPid) : Prop :=
  e.ctrl[3] = true ∧ e.ctrl[6] ≠ (pid == .data1)

/-- The number of the STAT word of entry `h`: `endp` in bits 7:4, `tx` in bit 3, `odd` in bit 2 (R96). -/
def statNumber (h : Handle) : Nat :=
  16 * h.ep.toNat + (if h.dir = .tx then 8 else 0) + (if h.par = .odd then 4 else 0)

/-- From `s` to `t` a completion on channel `c` was posted: the queue grew by a word of `c` (R233). -/
def completedOn (c : Channel) (s t : State) : Bool :=
  decide (s.statQ.length < t.statQ.length) &&
    match t.statQ.getLast? with
    | some b => handleChannel (statHandle b) == c
    | none => false

/-- How many operations of a list, run from `s`, complete a transaction on channel `c`. -/
def completionsOn (c : Channel) : List Instr → State → Nat
  | [], _ => 0
  | i :: is, s =>
    match exec i s with
    | .next t => (if completedOn c s t then 1 else 0) + completionsOn c is t
    | .fault _ => 0
    | .refused _ => 0

/-- How many operations of a list flip FW's BufferToggle of channel `c`. -/
def flipsOf (c : Channel) (is : List Instr) : Nat := is.count (.flipBuf c.ep c.dir)

/-! ## The invariant -/

/-- The refusals of R274. -/
def refusalCodes : List Refusal :=
  [.badCommand, .keepNinc, .reservedCtrl, .bufferRange, .overflow, .bcLimit, .arenaAccess, .addrWrap, .config]

/-- What every step keeps: memory is in canonical form; the queue is no longer than `STAT_DEPTH` (R43) and holds only
words the SIE posts, with reserved bits 0 and an endpoint that exists (R196, R233, R312); a SIE-owned entry has a
fully written control byte (R223) and is `Acquired` (R143); an entry handed back and not yet acquired has every field
written (R216, R230); faults are a set (R48); and the refusal mark is one of R274. -/
structure Inv (s : State) : Prop where
  memCanonical : s.mem.wf
  queueFits    : s.statQ.length ≤ s.cfg.statDepth
  postedWords  : ∀ b ∈ s.statQ, b.toNat % 4 = 0 ∧ HasEp s (statHandle b).ep
  released     : ∀ h, OwnedBySie (s.entry h) → (s.entry h).ctrlW = true ∧ (s.entry h).sync = .acquired
  handedBack   : ∀ h, (s.entry h).sync ≠ .acquired →
    (s.entry h).ctrlW = true ∧ (s.entry h).bcW = true ∧ (s.entry h).addrW = true
  faultSet     : s.faults.Nodup
  refusalCode  : ∀ q, s.refused = some q → q ∈ refusalCodes

end Sys2Proof
end

