-- ==== Sys2Proof/Certificates/Slice0/Obligations.lean ====
section
/-! DEFINITION. The statements for the provers, one `def Obligations.<Name> : Prop` each, in the order of
OBLIGATIONS.json. Each says which rule of spec/ it formalises. Where an operation completes, its whole next state is
written out as an update of the state before it, so that everything not named is unchanged (its frame). -/

open Sys2Proof Sys2Proof.Machine

namespace Sys2Proof

/-- A command record with operation code `op`: bits 31:24 of word 0 are `op` and bits 7:0 are 0 (R101, R105). -/
def Spells (r : Record) (op : Nat) : Prop := r.w0.toNat / 2 ^ 24 = op ∧ r.w0.toNat % 2 ^ 8 = 0

/-- The field of `n` bits from bit `k` of a word, as a value of width `n` (R101, R103). -/
def fieldOf (w : Word) (k n : Nat) : BitVec n := BitVec.ofNat n (w.toNat / 2 ^ k % 2 ^ n)

/-- Bit `k` of a word is 1. -/
def bitOf (w : Word) (k : Nat) : Bool := w.toNat / 2 ^ k % 2 == 1

/-- The handle operand of a record: `EP = w0[23:20]`, `DIR = w0[19]`, `PAR = w0[18]` (R101, R103). -/
def handleOf (r : Record) : Handle :=
  ⟨fieldOf r.w0 20 4, if bitOf r.w0 19 then .tx else .rx, if bitOf r.w0 18 then .odd else .even⟩

/-- The channel operand of a record (R101, R103). -/
def channelOf (r : Record) : Channel := ⟨fieldOf r.w0 20 4, if bitOf r.w0 19 then .tx else .rx⟩

/-- The byte operand `B = w0[15:8]` of a record (R101). -/
def byteOf (r : Record) : Byte := fieldOf r.w0 8 8

/-- An operation that returns the one value `v`: it completes in every state, `v` is appended to the result log, `pc`
advances, and nothing else changes. -/
def Returns (i : Instr) (v : Value) : Prop :=
  ∀ s : State, exec i s = .next { s with outLog := s.outLog ++ [v], pc := s.pc + 1 }

/-- The faults of R143 for an operation on entry `h` that writes: an endpoint that does not exist, then a SIE-owned
entry, then an entry that is not acquired. Each records the operation and changes nothing else. -/
def WriterFaults (i : Instr) (h : Handle) : Prop :=
  ∀ s : State,
    (¬ HasEp s h.ep → exec i s = .next (s.addFault ⟨.badHandle, .endpoint h.ep, some s.pc⟩)) ∧
    (HasEp s h.ep → OwnedBySie (s.entry h) →
      exec i s = .next (s.addFault ⟨.ownViolation, .handle h, some s.pc⟩)) ∧
    (HasEp s h.ep → OwnedByMcu (s.entry h) → (s.entry h).sync ≠ .acquired →
      exec i s = .next (s.addFault ⟨.unorderedAcquire, .handle h, some s.pc⟩))

/-- The faults of R143 for an operation that reads a field of entry `h`: no fault for a SIE-owned entry. -/
def ReaderFaults (i : Instr) (h : Handle) : Prop :=
  ∀ s : State,
    (¬ HasEp s h.ep → exec i s = .next (s.addFault ⟨.badHandle, .endpoint h.ep, some s.pc⟩)) ∧
    (HasEp s h.ep → OwnedByMcu (s.entry h) → (s.entry h).sync ≠ .acquired →
      exec i s = .next (s.addFault ⟨.unorderedAcquire, .handle h, some s.pc⟩))

/-- The fault of a toggle operation on an endpoint that does not exist (R175 to R178). -/
def ChannelFault (i : Instr) (ep : Ep) : Prop :=
  ∀ s : State, ¬ HasEp s ep → exec i s = .next (s.addFault ⟨.badHandle, .endpoint ep, some s.pc⟩)

/-- The checks of R252 for a memory operation `i` of `n` bytes at `addr`, in their order: alignment where `aligned`
asks for it, the end of the address space, the arena, for a store the buffers the SIE owns, then the buffers FW has
not acquired (of several, some one of them is recorded). -/
def MemoryChecks (i : Instr) (addr : Word) (n : Nat) (aligned isStore : Bool) : Prop :=
  ∀ s : State,
    (aligned = true ∧ addr.toNat % n ≠ 0 →
      exec i s = .next (s.addFault ⟨.misaligned, .address addr, some s.pc⟩)) ∧
    (aligned = false ∨ addr.toNat % n = 0 →
      (2 ^ 32 < addr.toNat + n → exec i s = .next (s.setRefused .addrWrap)) ∧
      (addr.toNat + n ≤ 2 ^ 32 →
        (Touches addr.toNat n (ArenaByte s.cfg) → exec i s = .next (s.setRefused .arenaAccess)) ∧
        (¬ Touches addr.toNat n (ArenaByte s.cfg) →
          (isStore = true ∧ TouchesSieBuffer s addr.toNat n →
            exec i s = .next (s.addFault ⟨.ownViolation, .address addr, some s.pc⟩)) ∧
          (isStore = false ∨ ¬ TouchesSieBuffer s addr.toNat n → (∃ h, UnacquiredBuffer s addr.toNat n h) →
            ∃ h, UnacquiredBuffer s addr.toNat n h ∧
              exec i s = .next (s.addFault ⟨.unorderedAcquire, .handle h, some s.pc⟩)))))

/-- The condition under which the checks of R252 pass. -/
structure MemoryFree (s : State) (addr : Word) (n : Nat) (aligned isStore : Bool) : Prop where
  isAligned  : aligned = false ∨ addr.toNat % n = 0
  inSpace    : addr.toNat + n ≤ 2 ^ 32
  offArena   : ¬ Touches addr.toNat n (ArenaByte s.cfg)
  offSie     : isStore = false ∨ ¬ TouchesSieBuffer s addr.toNat n
  isAcquired : ¬ ∃ h, UnacquiredBuffer s addr.toNat n h

/-- MEM_STORE of `n` bytes of `v` (R255): behind its checks it completes; byte `k` of `v` is then at `addr + k`, every
other address reads as before, `pending` is true, `pc` advances, and nothing else changes. -/
def StoresBytes (i : Instr) (addr : Word) (n v : Nat) : Prop :=
  MemoryChecks i addr n true true ∧
  ∀ s : State, MemoryFree s addr n true true →
    ∃ m : Memory, exec i s = .next { s with mem := m, pending := true, pc := s.pc + 1 } ∧
      (∀ k, k < n → m.read (addr.toNat + k) = some (BitVec.ofNat 8 (v / 256 ^ k))) ∧
      (∀ a, a < addr.toNat ∨ addr.toNat + n ≤ a → m.read a = s.mem.read a)

/-- MEM_LOAD of `n` bytes (R256): behind its checks it completes with one 32-bit value, zero above its `n` bytes, whose
byte `k` is the byte at `addr + k` where that byte is written and not in a buffer the SIE may be writing; every other
byte is a draw, of which nothing is said. -/
def LoadsBytes (i : Instr) (addr : Word) (n : Nat) : Prop :=
  MemoryChecks i addr n true false ∧
  ∀ s : State, MemoryFree s addr n true false →
    ∃ (t : State) (v : Word), exec i s = .next t ∧
      SameButDraws t { s with outLog := s.outLog ++ [.u32 v], pc := s.pc + 1 } ∧ v.toNat < 256 ^ n ∧
      ∀ k, k < n → ¬ SieMayWrite s (addr.toNat + k) → ∀ b, s.mem.read (addr.toNat + k) = some b →
        v.toNat / 256 ^ k % 256 = b.toNat

end Sys2Proof

/-! ## Reset and launch -/

/-- R51: the state after a launch with legal parameters. `BDT_BASE` and the other parameters are arguments (R8). That
MEM_INIT comes as a list of bytes, of which the last for an address counts, is the model's choice (log entry 13). -/
def Obligations.LaunchGivesResetValues : Prop :=
  ∀ (cfg : Config) (init : List (Word × Byte)) (prog : List Record), legalConfig cfg = true →
    let s := State.launch cfg init prog
    (∀ h, OwnedByMcu (s.entry h) ∧ (s.entry h).ctrlW = false ∧ (s.entry h).bcW = false ∧
      (s.entry h).addrW = false ∧ (s.entry h).sync = .acquired) ∧
    (∀ c, s.parity c = .even ∧ s.bufToggle c = .even ∧ s.dataToggle c = .data0) ∧
    s.statQ = [] ∧ s.irqXfer = false ∧ s.pending = false ∧ s.outLog = [] ∧ s.busTrace = [] ∧ s.faults = [] ∧
    s.refused = none ∧ s.pc = 0 ∧ s.cfg = cfg ∧ s.prog = prog ∧
    (∀ a b, s.mem.read a = some b ↔ ∃ pre post, init = pre ++ (BitVec.ofNat 32 a, b) :: post ∧ a < 2 ^ 32 ∧
      ∀ c ∈ post, c.1.toNat ≠ a)

/-- R8, R65, R274: a launch whose parameters are outside their legal values is refused with `REF_CONFIG`, and no step
follows. That the first step answers the refusal is the model's choice (log entry 10). -/
def Obligations.LaunchRefusesIllegalParameters : Prop :=
  ∀ (cfg : Config) (init : List (Word × Byte)) (prog : List Record),
    ¬ (1 ≤ cfg.numEp ∧ cfg.numEp ≤ 16 ∧ 32 ≤ cfg.bdtAlign ∧ (∃ k, cfg.bdtAlign = 2 ^ k) ∧
        cfg.bdtAlign ∣ cfg.bdtBase ∧ cfg.bdtBase + 32 * cfg.numEp ≤ 2 ^ 32 ∧ 1 ≤ cfg.statDepth ∧
        1 ≤ cfg.maxPacket ∧ cfg.maxPacket ≤ 65535) ↔
      step (State.launch cfg init prog) = .refused .config

/-- R51, R300, R301: a block reset in the middle of a run returns the state of R51 to its reset values and leaves memory,
the logs, the faults, the refusal and `pc`. The model's choices: the reserved byte is kept (log entry 1), and a block
reset is a turn of the schedule (log entries 4 and 14). -/
def Obligations.BlockResetInARun : Prop :=
  ∀ (s : State) (rest : List Turn), Safe s → s.sched = .blockReset :: rest →
    ∃ t : State, step s = .next t ∧
      (∀ h, OwnedByMcu (t.entry h) ∧ (t.entry h).ctrlW = false ∧ (t.entry h).bcW = false ∧
        (t.entry h).addrW = false ∧ (t.entry h).sync = .acquired ∧ (t.entry h).rsvd = (s.entry h).rsvd) ∧
      (∀ c, t.parity c = .even ∧ t.bufToggle c = .even ∧ t.dataToggle c = .data0) ∧
      t = { s with
        bdt := t.bdt, sieOdd := t.sieOdd, fwBuf := t.fwBuf, fwData := t.fwData, statQ := [], pending := false,
        sched := rest }

/-! ## The step -/

/-- R32, R278: on FW's turn the step decodes the record at `pc` and is the execution of that operation, the turn taken
off the schedule. -/
def Obligations.StepRunsDecodedCommand : Prop :=
  ∀ (s : State) (r : Record) (i : Instr), Safe s → FwTurn s → s.prog[s.pc]? = some r →
    decode (.command r) = .ok i → step s = exec i { s with sched := s.sched.tail }

/-- R104, R210, R278: when the host sends a token, the step is the execution of the transaction the token selects. -/
def Obligations.StepRunsDecodedToken : Prop :=
  ∀ (s : State) (h : HostStep) (rest : List Turn) (i : Instr), Safe s → s.sched = .host h :: rest →
    decode (.host h) = .ok i → step s = exec i { s with sched := rest }

/-- Word 0 of a record spells no operation (R105): its bits 7:0 are not 0, its operation code is not in the table of
R102, or it is a MEM_STORE or MEM_LOAD with `SZ = 0b11`. -/
def Sys2Proof.SpellsNothing (w0 : Word) : Prop :=
  w0.toNat % 2 ^ 8 ≠ 0 ∨
    w0.toNat / 2 ^ 24 ∉ [0x01, 0x02, 0x03, 0x04, 0x05, 0x06, 0x07, 0x10, 0x11, 0x12, 0x13, 0x14, 0x20, 0x21, 0x22, 0x23,
      0x30, 0x31, 0x32, 0x33, 0x34, 0x35, 0x36, 0x37, 0x38, 0x39, 0x3A, 0x40, 0x41, 0x42, 0x43] ∨
    (w0.toNat / 2 ^ 24 ∈ [0x41, 0x42] ∧ w0.toNat / 2 ^ 16 % 4 = 3)

/-- R105: a record that spells no operation is refused with `REF_BAD_COMMAND` before any check of an operation and `pc`
stays; every other record decodes, whatever its unused fields hold. That the next step answers the refusal (log entry
10) and that the turn is taken off a schedule (log entry 4) are the model's choices. -/
def Obligations.BadCommandIsRefused : Prop :=
  (∀ r : Record, ¬ SpellsNothing r.w0 → ∃ i, decode (.command r) = .ok i) ∧
  ∀ (s : State) (r : Record), Safe s → FwTurn s → s.prog[s.pc]? = some r → SpellsNothing r.w0 →
    step s = .next { s with sched := s.sched.tail, refused := some .badCommand } ∧
      step { s with sched := s.sched.tail, refused := some .badCommand } = .refused .badCommand

/-- R277: after a fault or a refusal the run stops. -/
def Obligations.FaultedOrRefusedStateStops : Prop :=
  ∀ s : State, (∀ r rest, s.faults = r :: rest → step s = .fault r.code) ∧
    (∀ q, s.faults = [] → s.refused = some q → step s = .refused q)

/-- The model's choice (log entries 4 and 9; R106 and R314 give the SIE and FW no step here): a turn of FW after the end
of its list, and a packet that is no token, pass with no effect. -/
def Obligations.TurnsWithoutAStepPass : Prop :=
  ∀ s : State, Safe s →
    (FwTurn s → s.prog.length ≤ s.pc → step s = .next { s with sched := s.sched.tail }) ∧
    (∀ h rest, s.sched = .host h :: rest → h.token.toNat % 256 ∉ [0x2D, 0xE1, 0x69] →
      step s = .next { s with sched := rest })

/-- R271, R272: no operation removes a fault or changes a refusal. -/
def Obligations.MarksAreSticky : Prop :=
  ∀ (i : Instr) (s t : State), exec i s = .next t →
    s.faults <+: t.faults ∧ (∀ q, s.refused = some q → t.refused = some q) ∧
    (∀ r, r ∈ (s.addFault r).faults) ∧ (∀ q, s.refused = none → (s.setRefused q).refused = some q)

/-- R271, R272, R279: every operation answers a next state; one that raises a fault does nothing but record it, and one
that is refused does nothing but set the mark, with a code of R274. -/
def Obligations.FaultsAndRefusalsHaveNoOtherEffect : Prop :=
  ∀ (i : Instr) (s : State), ∃ t, exec i s = .next t ∧
    (t.faults ≠ s.faults → ∃ r, t = s.addFault r) ∧
    (t.refused ≠ s.refused → ∃ q, q ∈ refusalCodes ∧ t = s.setRefused q)

/-- R31, R32, R49: `pc` stays or advances by one; the result log and the bus trace only grow, by at most one entry;
an FW operation that neither faults nor is refused advances `pc`, and a transaction of the SIE moves neither `pc` nor
the result log. -/
def Obligations.LogsGrowAndPcAdvances : Prop :=
  ∀ (i : Instr) (s t : State), exec i s = .next t →
    (t.pc = s.pc ∨ t.pc = s.pc + 1) ∧
    (∃ l, t.outLog = s.outLog ++ l ∧ l.length ≤ 1) ∧ (∃ l, t.busTrace = s.busTrace ++ l ∧ l.length ≤ 1) ∧
    (∀ tok ep pid payload ack lax, i = sieInstr tok ep pid payload ack lax → t.pc = s.pc ∧ t.outLog = s.outLog) ∧
    ((∀ tok ep pid payload ack lax, i ≠ sieInstr tok ep pid payload ack lax) →
      t.busTrace = s.busTrace ∧ (Safe s → Safe t → t.pc = s.pc + 1))

/-! ## Encodings -/

/-- Words of `95_test_vectors.md` (L2, L3) decode to the operations written beside them there. -/
def Obligations.SampleWordsDecode : Prop :=
  decode (.command ⟨0x011CC800, 0x00000002, 0x20000240⟩) = .ok (.bdtInit ⟨1, .tx, .odd⟩ 0xC8 2 0x20000240) ∧
  decode (.command ⟨0x10180000, 0, 0⟩) = .ok (.flipBuf 1 .tx) ∧
  decode (.command ⟨0x22180000, 0, 0⟩) = .ok (.statEncode 1 1 0) ∧
  decode (.command ⟨0x33000000, 0x00010203, 0⟩) = .ok (.requestType 1 2 3) ∧
  decode (.command ⟨0x38000000, 0x00000013, 0⟩) = .ok (.ctrlPack ⟨1, 1, 0, 0, 1, 0⟩) ∧
  decode (.command ⟨0x41010000, 0x00006655, 0x20000240⟩) = .ok (.memStore2 0x6655 0x20000240) ∧
  decode (.host ⟨0x0180E1, .data0, [0xAA, 0xBB], false, false⟩) = .ok (.sieOut 3 .data0 [0xAA, 0xBB])

/-- R102, R103, R104: no bit of an encoding is dropped; every well-formed operation is what its encoding decodes to. -/
def Obligations.DecodeOfEncode : Prop :=
  ∀ i : Instr, i.wellFormed = true → decode (encode i) = .ok i

/-- R110: every record either matches exactly one row of the table and decodes to a well-formed operation, or matches no
row and is refused. -/
def Obligations.EveryRecordOneRowOrRefused : Prop :=
  ∀ r : Record,
    (∃ row, commandRows.filter (fun w => w.matches r.w0) = [row] ∧
      ∃ i, decode (.command r) = .ok i ∧ i.wellFormed = true) ∨
    (commandRows.filter (fun w => w.matches r.w0) = [] ∧ ∃ e, decode (.command r) = .error e)

/-- R104, R106: the token's PID byte selects the transaction, `ENDP` in bits 18:15 is its endpoint, and no other PID byte
selects one. -/
def Obligations.TokenSelectsTransaction : Prop :=
  ∀ h : HostStep,
    let ep : Ep := BitVec.ofNat 4 (h.token.toNat / 2 ^ 15)
    (h.token.toNat % 256 = 0x2D → decode (.host h) = .ok (.sieSetup ep h.pid h.payload h.lax)) ∧
    (h.token.toNat % 256 = 0xE1 → decode (.host h) = .ok (.sieOut ep h.pid h.payload)) ∧
    (h.token.toNat % 256 = 0x69 → decode (.host h) = .ok (.sieIn ep h.ack)) ∧
    (h.token.toNat % 256 ∉ [0x2D, 0xE1, 0x69] → decode (.host h) = .error .notAToken)

/-! ## Request codec -/

/-- R120, R121, R122: the three fields of bmRequestType, for every byte. -/
def Obligations.RequestFieldsAreReturned : Prop :=
  (∀ r, (Spells r 0x30 → decode (.command r) = .ok (.reqRecipient (byteOf r))) ∧
    (Spells r 0x31 → decode (.command r) = .ok (.reqType (byteOf r))) ∧
    (Spells r 0x32 → decode (.command r) = .ok (.reqDirection (byteOf r)))) ∧
  ∀ b : Byte,
    Returns (.reqRecipient b) (.u5 (BitVec.ofNat 5 (b.toNat % 32))) ∧
    Returns (.reqType b) (.u2 (BitVec.ofNat 2 (b.toNat / 32 % 4))) ∧
    Returns (.reqDirection b) (.u1 (BitVec.ofNat 1 (b.toNat / 128)))

/-- R126: `(d << 7) | (t << 5) | r`. -/
def Obligations.RequestTypeIsPacked : Prop :=
  (∀ r, Spells r 0x33 →
    decode (.command r) = .ok (.requestType (fieldOf r.v 16 1) (fieldOf r.v 8 2) (fieldOf r.v 0 5))) ∧
  ∀ (d : BitVec 1) (t : BitVec 2) (r : BitVec 5),
    Returns (.requestType d t r) (.u8 (BitVec.ofNat 8 (128 * d.toNat + 32 * t.toNat + r.toNat)))

/-- R127: the typed fields of eight bytes, the 16-bit fields little-endian. -/
def Obligations.SetupPacketIsDecoded : Prop :=
  (∀ r, Spells r 0x34 → decode (.command r) = .ok (.setupDecode
    [fieldOf r.v 0 8, fieldOf r.v 8 8, fieldOf r.v 16 8, fieldOf r.v 24 8,
     fieldOf r.a 0 8, fieldOf r.a 8 8, fieldOf r.a 16 8, fieldOf r.a 24 8])) ∧
  ∀ b0 b1 b2 b3 b4 b5 b6 b7 : Byte,
    Returns (.setupDecode [b0, b1, b2, b3, b4, b5, b6, b7]) (.setup
      { recipient := BitVec.ofNat 5 (b0.toNat % 32), type := BitVec.ofNat 2 (b0.toNat / 32 % 4),
        direction := BitVec.ofNat 1 (b0.toNat / 128), bRequest := b1,
        wValue := BitVec.ofNat 16 (b2.toNat + 256 * b3.toNat),
        wIndex := BitVec.ofNat 16 (b4.toNat + 256 * b5.toNat),
        wLength := BitVec.ofNat 16 (b6.toNat + 256 * b7.toNat) })

/-- R128: the eight bytes of a packet. -/
def Obligations.SetupPacketIsEncoded : Prop :=
  (∀ r, Spells r 0x35 → decode (.command r) = .ok (.setupEncode
    { recipient := fieldOf r.v 0 5, type := fieldOf r.v 5 2, direction := fieldOf r.v 7 1,
      bRequest := fieldOf r.v 8 8, wValue := fieldOf r.v 16 16,
      wIndex := fieldOf r.a 0 16, wLength := fieldOf r.a 16 16 })) ∧
  ∀ p : SetupPacket,
    Returns (.setupEncode p) (.bytes
      [BitVec.ofNat 8 (128 * p.direction.toNat + 32 * p.type.toNat + p.recipient.toNat), p.bRequest,
       BitVec.ofNat 8 (p.wValue.toNat % 256), BitVec.ofNat 8 (p.wValue.toNat / 256),
       BitVec.ofNat 8 (p.wIndex.toNat % 256), BitVec.ofNat 8 (p.wIndex.toNat / 256),
       BitVec.ofNat 8 (p.wLength.toNat % 256), BitVec.ofNat 8 (p.wLength.toNat / 256)])

/-- R129: decoding an encoded packet gives it back, encoding eight decoded bytes gives them back, and the three fields
of a packed bmRequestType are the ones packed. -/
def Obligations.CodecRoundTrips : Prop :=
  (∀ p : SetupPacket, (encodeSetup p).length = 8 ∧ decodeSetup (encodeSetup p) = p) ∧
  (∀ bytes : List Byte, bytes.length = 8 → encodeSetup (decodeSetup bytes) = bytes) ∧
  (∀ (d : BitVec 1) (t : BitVec 2) (r : BitVec 5),
    reqDirection (packRequestType d t r) = d ∧ reqType (packRequestType d t r) = t ∧
    reqRecipient (packRequestType d t r) = r)

/-! ## Control-byte views -/

/-- R140, R141: the two views of every control byte. -/
def Obligations.ControlViewsAreReturned : Prop :=
  (∀ r, (Spells r 0x36 → decode (.command r) = .ok (.ctrlSetupView (byteOf r))) ∧
    (Spells r 0x37 → decode (.command r) = .ok (.ctrlResultView (byteOf r)))) ∧
  ∀ c : Byte,
    let bit : Nat → BitVec 1 := fun k => BitVec.ofNat 1 (c.toNat / 2 ^ k)
    Returns (.ctrlSetupView c) (.setupView
      { bits := { own := bit 7, data01 := bit 6, keep := bit 5, ninc := bit 4, dts := bit 3, bdtStall := bit 2 },
        rsvd := BitVec.ofNat 2 (c.toNat % 4) }) ∧
    Returns (.ctrlResultView c) (.resultView
      { own := bit 7, data01 := bit 6, tokPid := BitVec.ofNat 4 (c.toNat / 4), rsvd := BitVec.ofNat 2 (c.toNat % 4) })

/-- R142: the packer, and the law that the setup view of a packed byte is what was packed, with reserved bits 0. -/
def Obligations.ControlBitsArePacked : Prop :=
  (∀ r, Spells r 0x38 → decode (.command r) = .ok (.ctrlPack
    { own := fieldOf r.v 0 1, data01 := fieldOf r.v 1 1, keep := fieldOf r.v 2 1, ninc := fieldOf r.v 3 1,
      dts := fieldOf r.v 4 1, bdtStall := fieldOf r.v 5 1 })) ∧
  ∀ f : CtrlBits,
    Returns (.ctrlPack f) (.u8 (BitVec.ofNat 8 (128 * f.own.toNat + 64 * f.data01.toNat + 32 * f.keep.toNat +
      16 * f.ninc.toNat + 8 * f.dts.toNat + 4 * f.bdtStall.toNat))) ∧
    setupView (packCtrl f) = ⟨f, 0⟩

/-! ## Toggles -/

/-- R173, R174: the pure flips of the two toggles, and that flipping twice is the identity. -/
def Obligations.NotFlipsToggles : Prop :=
  (∀ r, (Spells r 0x39 → decode (.command r) = .ok (.notBuf (if bitOf r.w0 8 then .odd else .even))) ∧
    (Spells r 0x3A → decode (.command r) = .ok (.notData (if bitOf r.w0 8 then .data1 else .data0)))) ∧
  Returns (.notBuf .even) (.buf .odd) ∧ Returns (.notBuf .odd) (.buf .even) ∧
  Returns (.notData .data0) (.data .data1) ∧ Returns (.notData .data1) (.data .data0) ∧
  (∀ t, Machine.notBuf (Machine.notBuf t) = t) ∧ (∀ t, Machine.notData (Machine.notData t) = t)

/-- R175, R176: FLIP_BUF and FLIP_DATA flip the one toggle of the channel they name. -/
def Obligations.FlipChangesOneToggle : Prop :=
  (∀ r, (Spells r 0x10 → decode (.command r) = .ok (.flipBuf (channelOf r).ep (channelOf r).dir)) ∧
    (Spells r 0x11 → decode (.command r) = .ok (.flipData (channelOf r).ep (channelOf r).dir))) ∧
  ∀ (ep : Ep) (dir : Dir), ChannelFault (.flipBuf ep dir) ep ∧ ChannelFault (.flipData ep dir) ep ∧
    ∀ s : State, HasEp s ep →
      (∃ v, exec (.flipBuf ep dir) s = .next { s with fwBuf := v, pc := s.pc + 1 } ∧
        ∀ c, ({ s with fwBuf := v } : State).bufToggle c = .odd ↔
          if c = ⟨ep, dir⟩ then s.bufToggle c = .even else s.bufToggle c = .odd) ∧
      (∃ v, exec (.flipData ep dir) s = .next { s with fwData := v, pc := s.pc + 1 } ∧
        ∀ c, ({ s with fwData := v } : State).dataToggle c = .data1 ↔
          if c = ⟨ep, dir⟩ then s.dataToggle c = .data0 else s.dataToggle c = .data1)

/-- R177, R178: CLEAR_TOGGLES sets both toggles of its channel to Even and DATA0, and READ_TOGGLES returns them. -/
def Obligations.ClearAndReadToggles : Prop :=
  (∀ r, (Spells r 0x12 → decode (.command r) = .ok (.clearToggles (channelOf r).ep (channelOf r).dir)) ∧
    (Spells r 0x13 → decode (.command r) = .ok (.readToggles (channelOf r).ep (channelOf r).dir))) ∧
  ∀ (ep : Ep) (dir : Dir), ChannelFault (.clearToggles ep dir) ep ∧ ChannelFault (.readToggles ep dir) ep ∧
    ∀ s : State, HasEp s ep →
      (∃ v w, exec (.clearToggles ep dir) s = .next { s with fwBuf := v, fwData := w, pc := s.pc + 1 } ∧
        ∀ c, ({ s with fwBuf := v } : State).bufToggle c = (if c = ⟨ep, dir⟩ then .even else s.bufToggle c) ∧
          ({ s with fwData := w } : State).dataToggle c = (if c = ⟨ep, dir⟩ then .data0 else s.dataToggle c)) ∧
      exec (.readToggles ep dir) s = .next { s with
        outLog := s.outLog ++ [.toggles (s.bufToggle ⟨ep, dir⟩) (s.dataToggle ⟨ep, dir⟩)], pc := s.pc + 1 }

/-- R179: ODD_RESET points every channel of the SIE at its even entry and changes nothing else. -/
def Obligations.OddResetAlignsTheSie : Prop :=
  (∀ r, Spells r 0x14 → decode (.command r) = .ok .oddReset) ∧
  ∀ s : State, ∃ v, exec .oddReset s = .next { s with sieOdd := v, pc := s.pc + 1 } ∧
    ∀ c, HasEp s c.ep → ({ s with sieOdd := v } : State).parity c = .even

/-- R181: if FW flips its BufferToggle of a channel as often as the SIE completes on it, and neither is re-aligned in
between, the two agree at the end as they did at the start; at reset both are even. -/
def Obligations.BufferToggleTracksTheSie : Prop :=
  (∀ c, State.reset.bufToggle c = .even ∧ State.reset.parity c = .even) ∧
  ∀ (c : Channel) (is : List Instr) (s t : State), HasEp s c.ep →
    (∀ i ∈ is, i ≠ .clearToggles c.ep c.dir ∧ i ≠ .oddReset) → runOps is s = some t →
    flipsOf c is = completionsOn c is s → (s.bufToggle c).toPar = s.parity c →
    (t.bufToggle c).toPar = t.parity c

/-! ## Status -/

/-- R190, R191, R192: decode, encode and lookup of a STAT byte, and the two round-trip laws of R191. -/
def Obligations.StatIsDecodedAndEncoded : Prop :=
  (∀ r, (Spells r 0x21 → decode (.command r) = .ok (.statDecode (byteOf r))) ∧
    (Spells r 0x22 →
      decode (.command r) = .ok (.statEncode (fieldOf r.w0 20 4) (fieldOf r.w0 19 1) (fieldOf r.w0 18 1))) ∧
    (Spells r 0x23 → decode (.command r) = .ok (.statToHandle (byteOf r)))) ∧
  (∀ raw : Byte,
    Returns (.statDecode raw) (.stat
      ⟨BitVec.ofNat 4 (raw.toNat / 16), BitVec.ofNat 1 (raw.toNat / 8), BitVec.ofNat 1 (raw.toNat / 4)⟩) ∧
    Returns (.statToHandle raw) (.handle ⟨BitVec.ofNat 4 (raw.toNat / 16),
      if raw.toNat / 8 % 2 = 1 then .tx else .rx, if raw.toNat / 4 % 2 = 1 then .odd else .even⟩) ∧
    statByte (statFields raw) = raw &&& 0xFC) ∧
  ∀ f : StatFields,
    Returns (.statEncode f.endp f.tx f.odd)
      (.u8 (BitVec.ofNat 8 (16 * f.endp.toNat + 8 * f.tx.toNat + 4 * f.odd.toNat))) ∧
    statFields (statByte f) = f

/-- R195: STAT_POP returns and removes the oldest word, and returns `EMPTY` and removes nothing of an empty queue. -/
def Obligations.StatPopTakesTheOldest : Prop :=
  (∀ r, Spells r 0x20 → decode (.command r) = .ok .statPop) ∧
  ∀ s : State,
    (s.statQ = [] → exec .statPop s = .next { s with outLog := s.outLog ++ [.empty], pc := s.pc + 1 }) ∧
    (∀ b rest, s.statQ = b :: rest →
      exec .statPop s = .next { s with outLog := s.outLog ++ [.u8 b], statQ := rest, pc := s.pc + 1 })

/-- R193: the handle of a STAT byte has index `raw >> 2`, and its entry stands at `BDT_BASE + ((raw & 0xFC) << 1)`. -/
def Obligations.StatByteIsTheEntryIndex : Prop :=
  ∀ (cfg : Config) (raw : Byte), (handleIndex (statHandle raw)).val = raw.toNat / 4 ∧
    entryAddr cfg (statHandle raw) = cfg.bdtBase + 2 * (raw &&& 0xFC).toNat

/-- R197, R276: `IRQ_XFER` is asserted exactly while `statQ` is non-empty, so a STAT_POP that empties the queue
deasserts it. -/
def Obligations.InterruptFollowsTheQueue : Prop :=
  ∀ s : State, (s.irqXfer = true ↔ s.statQ ≠ []) ∧
    ∀ t, exec .statPop s = .next t → (t.irqXfer = true ↔ 2 ≤ s.statQ.length)

/-! ## BDT entries -/

/-- R33, R65, R170: entries of different handles never alias: their 8 bytes in the arena are disjoint, the bytes of an
entry that exists lie in the arena, and a write of one entry leaves every other. -/
def Obligations.EntriesNeverAlias : Prop :=
  ∀ (s : State) (h h' : Handle) (e : BdtEntry),
    (s.setEntry h e).entry h = e ∧
    (h ≠ h' → (s.setEntry h e).entry h' = s.entry h' ∧
      ∀ x, entryAddr s.cfg h ≤ x → x < entryAddr s.cfg h + 8 →
        ¬ (entryAddr s.cfg h' ≤ x ∧ x < entryAddr s.cfg h' + 8)) ∧
    (handleIndex h).val = 4 * h.ep.toNat + (if h.dir = .tx then 2 else 0) + (if h.par = .odd then 1 else 0) ∧
    entryAddr s.cfg h = s.cfg.bdtBase + 32 * h.ep.toNat + (if h.dir = .tx then 16 else 0) +
      (if h.par = .odd then 8 else 0) ∧
    (HasEp s h.ep → ∀ x, entryAddr s.cfg h ≤ x → x < entryAddr s.cfg h + 8 → ArenaByte s.cfg x)

/-- R62, R95, R171: the eight bytes of an entry as they stand in the arena. -/
def Obligations.EntryImageIsLittleEndian : Prop :=
  ∀ e : BdtEntry, entryImage e =
    [e.ctrl, e.rsvd, BitVec.ofNat 8 (e.bc.toNat % 256), BitVec.ofNat 8 (e.bc.toNat / 256),
      BitVec.ofNat 8 (e.addr.toNat % 256), BitVec.ofNat 8 (e.addr.toNat / 256 % 256),
      BitVec.ofNat 8 (e.addr.toNat / 65536 % 256), BitVec.ofNat 8 (e.addr.toNat / 16777216)]

/-- R145: BDT_INIT writes all three fields behind an implicit barrier, releases the entry if `ctrl[7]` is 1 and sets
`pending` if it is 0. -/
def Obligations.BdtInitWritesTheEntry : Prop :=
  (∀ r, Spells r 0x01 → decode (.command r) = .ok (.bdtInit (handleOf r) (byteOf r) (fieldOf r.v 0 16) r.a)) ∧
  ∀ (h : Handle) (ctrl : Byte) (bc : Half) (addr : Word), WriterFaults (.bdtInit h ctrl bc addr) h ∧
    ∀ s : State, MayAccess s h →
      ∃ v, exec (.bdtInit h ctrl bc addr) s =
          .next { s with bdt := v, pending := !ctrl[7], pc := s.pc + 1 } ∧
        ∀ h', ({ s with bdt := v } : State).entry h' =
          if h' = h then { s.entry h with ctrl := ctrl, ctrlW := true, bc := bc, bcW := true, addr := addr, addrW := true }
          else if (s.entry h').sync = .observed then { s.entry h' with sync := .acquired } else s.entry h'

/-- R146, R147: BDT_SET_BC writes only `bc` and BDT_SET_ADDR only `addr`; both set `pending`. -/
def Obligations.SetBcAndSetAddrWriteOneField : Prop :=
  (∀ r, (Spells r 0x02 → decode (.command r) = .ok (.bdtSetBc (handleOf r) (fieldOf r.v 0 16))) ∧
    (Spells r 0x03 → decode (.command r) = .ok (.bdtSetAddr (handleOf r) r.a))) ∧
  ∀ (h : Handle) (bc : Half) (addr : Word),
    WriterFaults (.bdtSetBc h bc) h ∧ WriterFaults (.bdtSetAddr h addr) h ∧
    ∀ s : State, MayAccess s h →
      exec (.bdtSetBc h bc) s = .next { s.setEntry h { s.entry h with bc := bc, bcW := true } with
        pending := true, pc := s.pc + 1 } ∧
      exec (.bdtSetAddr h addr) s = .next { s.setEntry h { s.entry h with addr := addr, addrW := true } with
        pending := true, pc := s.pc + 1 }

/-- R148, R144, R253: BDT_SET_CTRL writes the control byte; a release needs `pending` false and faults otherwise, any
other write sets `pending`. -/
def Obligations.SetCtrlWritesOrReleases : Prop :=
  (∀ r, Spells r 0x04 → decode (.command r) = .ok (.bdtSetCtrl (handleOf r) (byteOf r))) ∧
  ∀ (h : Handle) (ctrl : Byte), WriterFaults (.bdtSetCtrl h ctrl) h ∧
    ∀ s : State, MayAccess s h →
      (ctrl[7] = false → exec (.bdtSetCtrl h ctrl) s =
        .next { s.setEntry h { s.entry h with ctrl := ctrl, ctrlW := true } with
          pending := true, pc := s.pc + 1 }) ∧
      (ctrl[7] = true → s.pending = false → exec (.bdtSetCtrl h ctrl) s =
        .next { s.setEntry h { s.entry h with ctrl := ctrl, ctrlW := true } with pc := s.pc + 1 }) ∧
      (ctrl[7] = true → s.pending = true → exec (.bdtSetCtrl h ctrl) s =
        .next (s.addFault ⟨.unorderedRelease, .handle h, some s.pc⟩))

/-- R149: BDT_READ_CTRL completes in every ownership state; it returns the byte, or `own` with bits of which nothing is
said while bits 6:0 are unwritten, and turns `Completed` into `Observed` when it sees `own == MCU`. -/
def Obligations.ReadCtrlObservesTheHandback : Prop :=
  (∀ r, Spells r 0x05 → decode (.command r) = .ok (.bdtReadCtrl (handleOf r))) ∧
  ∀ (h : Handle) (s : State),
    (¬ HasEp s h.ep → exec (.bdtReadCtrl h) s = .next (s.addFault ⟨.badHandle, .endpoint h.ep, some s.pc⟩)) ∧
    (HasEp s h.ep → ∃ (t : State) (v : Byte), exec (.bdtReadCtrl h) s = .next t ∧
      v[7] = (s.entry h).ctrl[7] ∧ ((s.entry h).ctrlW = true → v = (s.entry h).ctrl) ∧
      (OwnedByMcu (s.entry h) ∧ (s.entry h).sync = .completed →
        SameButDraws t { s.setEntry h { s.entry h with sync := .observed } with
          outLog := s.outLog ++ [.u8 v], pc := s.pc + 1 }) ∧
      (¬ (OwnedByMcu (s.entry h) ∧ (s.entry h).sync = .completed) →
        SameButDraws t { s with outLog := s.outLog ++ [.u8 v], pc := s.pc + 1 }))

/-- R150, R151: BDT_READ_BC and BDT_READ_ADDR return the field of an acquired MCU-owned entry whose field is written;
of a SIE-owned entry, or an unwritten field, they return some value and complete all the same. -/
def Obligations.ReadBcAndReadAddr : Prop :=
  (∀ r, (Spells r 0x06 → decode (.command r) = .ok (.bdtReadBc (handleOf r))) ∧
    (Spells r 0x07 → decode (.command r) = .ok (.bdtReadAddr (handleOf r)))) ∧
  ∀ h : Handle, ReaderFaults (.bdtReadBc h) h ∧ ReaderFaults (.bdtReadAddr h) h ∧
    ∀ s : State, MayAccess s h ∨ HasEp s h.ep ∧ OwnedBySie (s.entry h) →
      (∃ (t : State) (v : Half), exec (.bdtReadBc h) s = .next t ∧
        SameButDraws t { s with outLog := s.outLog ++ [.u16 v], pc := s.pc + 1 } ∧
        (OwnedByMcu (s.entry h) → (s.entry h).bcW = true → v = (s.entry h).bc)) ∧
      (∃ (t : State) (v : Word), exec (.bdtReadAddr h) s = .next t ∧
        SameButDraws t { s with outLog := s.outLog ++ [.u32 v], pc := s.pc + 1 } ∧
        (OwnedByMcu (s.entry h) → (s.entry h).addrW = true → v = (s.entry h).addr))

/-- R153: whatever the outcome, BDT_SET_BC leaves `ctrl` and `addr`, BDT_SET_ADDR leaves `ctrl` and `bc`, BDT_SET_CTRL
leaves `bc` and `addr`, and none of them, nor BDT_INIT, writes a field of another entry or a byte of memory. -/
def Obligations.EntryFieldsAreIndependent : Prop :=
  ∀ (h : Handle) (ctrl : Byte) (bc : Half) (addr : Word) (s t : State),
    (exec (.bdtSetBc h bc) s = .next t → (t.entry h).ctrl = (s.entry h).ctrl ∧ (t.entry h).addr = (s.entry h).addr) ∧
    (exec (.bdtSetAddr h addr) s = .next t → (t.entry h).ctrl = (s.entry h).ctrl ∧ (t.entry h).bc = (s.entry h).bc) ∧
    (exec (.bdtSetCtrl h ctrl) s = .next t → (t.entry h).bc = (s.entry h).bc ∧ (t.entry h).addr = (s.entry h).addr) ∧
    (∀ i ∈ [Instr.bdtSetBc h bc, .bdtSetAddr h addr, .bdtSetCtrl h ctrl, .bdtInit h ctrl bc addr],
      exec i s = .next t → t.mem = s.mem ∧ ∀ h', h' ≠ h →
        (t.entry h').ctrl = (s.entry h').ctrl ∧ (t.entry h').bc = (s.entry h').bc ∧
        (t.entry h').addr = (s.entry h').addr)

/-- R145, derived: BDT_INIT never raises `FLT_UNORDERED_RELEASE`, since its implicit barrier clears `pending`. -/
def Obligations.InitNeverUnorderedRelease : Prop :=
  ∀ (h : Handle) (ctrl : Byte) (bc : Half) (addr : Word) (s t : State),
    .unorderedRelease ∉ s.faultCodes → exec (.bdtInit h ctrl bc addr) s = .next t →
    .unorderedRelease ∉ t.faultCodes

/-! ## Barrier and memory -/

/-- R250: BARRIER clears `pending` and acquires every observed entry; a completed entry FW has not observed stays so. -/
def Obligations.BarrierAcquiresObservedEntries : Prop :=
  (∀ r, Spells r 0x40 → decode (.command r) = .ok .barrier) ∧
  ∀ s : State, ∃ v, exec .barrier s = .next { s with bdt := v, pending := false, pc := s.pc + 1 } ∧
    ∀ h, ({ s with bdt := v } : State).entry h =
      if (s.entry h).sync = .observed then { s.entry h with sync := .acquired } else s.entry h

/-- R255 with the checks of R252: the three widths of MEM_STORE. -/
def Obligations.StoresWriteTheirBytes : Prop :=
  (∀ r, Spells r 0x41 →
    (r.w0.toNat / 2 ^ 16 % 4 = 0 → decode (.command r) = .ok (.memStore1 (fieldOf r.v 0 8) r.a)) ∧
    (r.w0.toNat / 2 ^ 16 % 4 = 1 → decode (.command r) = .ok (.memStore2 (fieldOf r.v 0 16) r.a)) ∧
    (r.w0.toNat / 2 ^ 16 % 4 = 2 → decode (.command r) = .ok (.memStore4 r.v r.a))) ∧
  ∀ addr : Word,
    (∀ v : BitVec 8, StoresBytes (.memStore1 v addr) addr 1 v.toNat) ∧
    (∀ v : BitVec 16, StoresBytes (.memStore2 v addr) addr 2 v.toNat) ∧
    (∀ v : BitVec 32, StoresBytes (.memStore4 v addr) addr 4 v.toNat)

/-- R256 with the checks of R252: the three widths of MEM_LOAD. -/
def Obligations.LoadsReturnTheirBytes : Prop :=
  (∀ r, Spells r 0x42 →
    (r.w0.toNat / 2 ^ 16 % 4 = 0 → decode (.command r) = .ok (.memLoad1 r.a)) ∧
    (r.w0.toNat / 2 ^ 16 % 4 = 1 → decode (.command r) = .ok (.memLoad2 r.a)) ∧
    (r.w0.toNat / 2 ^ 16 % 4 = 2 → decode (.command r) = .ok (.memLoad4 r.a))) ∧
  ∀ addr : Word, LoadsBytes (.memLoad1 addr) addr 1 ∧ LoadsBytes (.memLoad2 addr) addr 2 ∧
    LoadsBytes (.memLoad4 addr) addr 4

/-- R257: SETUP_FETCH decodes the eight bytes at any address; where all eight are written and in no buffer the SIE may be
writing, the packet is the one they spell. -/
def Obligations.SetupFetchDecodesMemory : Prop :=
  (∀ r, Spells r 0x43 → decode (.command r) = .ok (.setupFetch r.a)) ∧
  ∀ addr : Word, MemoryChecks (.setupFetch addr) addr 8 false false ∧
    ∀ s : State, MemoryFree s addr 8 false false →
      ∃ (t : State) (p : SetupPacket), exec (.setupFetch addr) s = .next t ∧
        SameButDraws t { s with outLog := s.outLog ++ [.setup p], pc := s.pc + 1 } ∧
        ∃ bytes : List Byte, bytes.length = 8 ∧ p = decodeSetup bytes ∧
          ∀ k, k < 8 → ¬ SieMayWrite s (addr.toNat + k) → ∀ b, s.mem.read (addr.toNat + k) = some b →
            bytes[k]? = some b

/-! ## SIE transactions -/

/-- R217: a token for an endpoint or a channel the SIE does not answer changes only the bus trace. -/
def Obligations.UnansweredTokenChangesNothing : Prop :=
  ∀ tok ep pid payload ack lax (s : State), ¬ Answered s tok ep →
    exec (sieInstr tok ep pid payload ack lax) s =
      .next { s with busTrace := s.busTrace ++ [.answer tok ep .noResponse] }

/-- R218: the SIE answers NAK and changes only the bus trace when the queue is full, or when the selected entry is
MCU-owned, whatever the owner of the other parity's entry. -/
def Obligations.NakChangesNothing : Prop :=
  ∀ tok ep pid payload ack lax (s : State) (h : Handle), Answered s tok ep → Selects s tok ep h →
    s.statQ.length = s.cfg.statDepth ∨ OwnedByMcu (s.entry h) →
    exec (sieInstr tok ep pid payload ack lax) s = .next { s with busTrace := s.busTrace ++ [.answer tok ep .nak] }

/-- R220, R237: an entry whose `bdt_stall` bit is set answers STALL and nothing but the bus trace changes, unless the
host lets a SETUP through. -/
def Obligations.StallChangesNothing : Prop :=
  ∀ tok ep pid payload ack lax (s : State) (h : Handle), Engaged s tok ep h →
    (s.entry h).ctrl[2] = true → ¬ Lax tok lax →
    exec (sieInstr tok ep pid payload ack lax) s = .next { s with busTrace := s.busTrace ++ [.answer tok ep .stall] }

/-- R219, R221, R222, R223, in the order of R216: what stops a transaction on a SIE-owned entry before data moves. -/
def Obligations.TransactionGuards : Prop :=
  ∀ tok ep pid payload ack lax (s : State) (h : Handle), Engaged s tok ep h →
    ((s.entry h).ctrl[2] = false ∨ Lax tok lax) →
    let e := s.entry h
    let r := exec (sieInstr tok ep pid payload ack lax) s
    (e.ctrl[5] = true ∨ e.ctrl[4] = true → r = .next (s.setRefused .keepNinc)) ∧
    (e.ctrl[5] = false → e.ctrl[4] = false →
      (e.ctrl.toNat % 4 ≠ 0 → r = .next (s.setRefused .reservedCtrl)) ∧
      (e.ctrl.toNat % 4 = 0 →
        (e.bcW = false ∨ e.addrW = false → r = .next (s.addFault ⟨.sieUnwritten, .handle h, none⟩)) ∧
        (e.bcW = true → e.addrW = true → ¬ RangeFits s e → r = .next (s.setRefused .bufferRange))))

/-- R224, R225: a payload longer than the buffer and a transmit count over `MAX_PACKET` are refused. -/
def Obligations.LengthRefusals : Prop :=
  ∀ tok ep pid payload ack lax (s : State) (h : Handle), Cleared s tok ep lax h →
    (tok ≠ .inn → (s.entry h).bc.toNat < payload.length →
      exec (sieInstr tok ep pid payload ack lax) s = .next (s.setRefused .overflow)) ∧
    (tok = .inn → s.cfg.maxPacket < (s.entry h).bc.toNat →
      exec (sieInstr tok ep pid payload ack lax) s = .next (s.setRefused .bcLimit))

/-- R226: with DTS on, a packet with the wrong toggle is acknowledged and discarded and only the bus trace changes; with
DTS off the PID is not checked and the packet is stored. -/
def Obligations.ToggleMismatchIsDiscarded : Prop :=
  ∀ tok ep pid payload ack lax (s : State) (h : Handle), tok ≠ .inn → Cleared s tok ep lax h →
    payload.length ≤ (s.entry h).bc.toNat →
    (ToggleMismatch (s.entry h) pid → ¬ Lax tok lax →
      exec (sieInstr tok ep pid payload ack lax) s =
        .next { s with busTrace := s.busTrace ++ [.received tok ep pid payload false] }) ∧
    ((s.entry h).ctrl[3] = false → ∃ t, exec (sieInstr tok ep pid payload ack lax) s = .next t ∧
      t.busTrace = s.busTrace ++ [.received tok ep pid payload true])

/-- R213, R214, R227, R230 to R233: SIE_SETUP and SIE_OUT complete: the payload is in the buffer and every other byte of
memory reads as before, the entry is handed back with the token PID and the received count, the parity pointer flips,
the STAT word is posted, and nothing else changes. -/
def Obligations.ReceiveCompletes : Prop :=
  ∀ tok ep pid payload ack lax (s : State) (h : Handle), tok ≠ .inn → Cleared s tok ep lax h →
    payload.length ≤ (s.entry h).bc.toNat → (¬ ToggleMismatch (s.entry h) pid ∨ Lax tok lax) →
    ∃ (m : Memory) (v : Vector Par 32),
      exec (sieInstr tok ep pid payload ack lax) s = .next { s.setEntry h { s.entry h with
          ctrl := ((s.entry h).ctrl &&& 0x43) ||| (if tok = .setup then 0x34 else 0x04),
          bc := BitVec.ofNat 16 payload.length, bcW := true, sync := .completed } with
        mem := m, sieOdd := v, statQ := s.statQ ++ [BitVec.ofNat 8 (statNumber h)],
        busTrace := s.busTrace ++ [.received tok ep pid payload true] } ∧
      (∀ k, k < payload.length → m.read ((s.entry h).addr.toNat + k) = payload[k]?) ∧
      (∀ a, a < (s.entry h).addr.toNat ∨ (s.entry h).addr.toNat + payload.length ≤ a → m.read a = s.mem.read a) ∧
      (∀ c, ({ s with sieOdd := v } : State).parity c = .odd ↔
        if c = ⟨ep, .rx⟩ then s.parity c = .even else s.parity c = .odd)

/-- R228, R229: an IN sends the buffer's bytes (of an unwritten byte nothing is said) with the PID of `data0_1`; without
the host's acknowledgement nothing but the bus trace changes. -/
def Obligations.UnacknowledgedInChangesNothing : Prop :=
  ∀ ep (s : State) (h : Handle), Cleared s .inn ep false h → (s.entry h).bc.toNat ≤ s.cfg.maxPacket →
    ∃ (t : State) (bytes : List Byte), exec (.sieIn ep false) s = .next t ∧
      SameButDraws t { s with busTrace := s.busTrace ++
        [.sent ep (if (s.entry h).ctrl[6] then .data1 else .data0) bytes false] } ∧
      bytes.length = (s.entry h).bc.toNat ∧
      ∀ k, k < bytes.length → ∀ b, s.mem.read ((s.entry h).addr.toNat + k) = some b → bytes[k]? = some b

/-- R215, R228, R230 to R233: an acknowledged IN completes: the entry is handed back with the token PID of IN and its own
count, the parity pointer flips, the STAT word is posted, memory and everything else is unchanged. -/
def Obligations.AcknowledgedInCompletes : Prop :=
  ∀ ep (s : State) (h : Handle), Cleared s .inn ep false h → (s.entry h).bc.toNat ≤ s.cfg.maxPacket →
    ∃ (t : State) (v : Vector Par 32) (bytes : List Byte), exec (.sieIn ep true) s = .next t ∧
      SameButDraws t { s.setEntry h { s.entry h with
          ctrl := ((s.entry h).ctrl &&& 0x43) ||| 0x24, bcW := true, sync := .completed } with
        sieOdd := v, statQ := s.statQ ++ [BitVec.ofNat 8 (statNumber h)],
        busTrace := s.busTrace ++
          [.sent ep (if (s.entry h).ctrl[6] then .data1 else .data0) bytes true] } ∧
      bytes.length = (s.entry h).bc.toNat ∧
      (∀ k, k < bytes.length → ∀ b, s.mem.read ((s.entry h).addr.toNat + k) = some b → bytes[k]? = some b) ∧
      (∀ c, ({ s with sieOdd := v } : State).parity c = .odd ↔
        if c = ⟨ep, .tx⟩ then s.parity c = .even else s.parity c = .odd)

/-- R235: whatever the outcome, a transaction changes no entry but the selected one, no `addr` and no reserved byte, and
none of FW's toggles; R180: with no completion it flips no parity pointer and posts no STAT word. -/
def Obligations.TransactionTouchesOneEntry : Prop :=
  ∀ tok ep pid payload ack lax (s t : State) (h : Handle), Selects s tok ep h →
    exec (sieInstr tok ep pid payload ack lax) s = .next t →
    (∀ h', h' ≠ h → t.entry h' = s.entry h') ∧ (t.entry h).addr = (s.entry h).addr ∧
    (t.entry h).addrW = (s.entry h).addrW ∧ (t.entry h).rsvd = (s.entry h).rsvd ∧
    t.fwBuf = s.fwBuf ∧ t.fwData = s.fwData ∧ t.pending = s.pending ∧
    (t.entry h = s.entry h → OwnedBySie (s.entry h) → t.sieOdd = s.sieOdd ∧ t.statQ = s.statQ ∧ t.mem = s.mem)

/-! ## Whole-machine rules -/

/-- R39, R152: only a FW release gives an entry to the SIE, and only a SIE completion gives it back, as `Completed`. -/
def Obligations.OwnershipChangesHands : Prop :=
  ∀ (i : Instr) (s t : State) (h : Handle), exec i s = .next t →
    (OwnedByMcu (s.entry h) → OwnedBySie (t.entry h) →
      ∃ ctrl : Byte, ctrl[7] = true ∧ (i = .bdtSetCtrl h ctrl ∨ ∃ bc addr, i = .bdtInit h ctrl bc addr)) ∧
    (OwnedBySie (s.entry h) → OwnedByMcu (t.entry h) →
      (∃ tok ep pid payload ack lax, i = sieInstr tok ep pid payload ack lax ∧ Selects s tok ep h) ∧
      (t.entry h).sync = .completed ∧ t.statQ = s.statQ ++ [BitVec.ofNat 8 (statNumber h)])

/-- R236: while an entry is SIE-owned no FW operation changes it, in every state with the invariant. -/
def Obligations.SieOwnedEntryIsSafeFromFirmware : Prop :=
  ∀ (i : Instr) (s t : State) (h : Handle), Inv s → OwnedBySie (s.entry h) →
    (∀ tok ep pid payload ack lax, i ≠ sieInstr tok ep pid payload ack lax) → exec i s = .next t →
    t.entry h = s.entry h

/-- R35, R37, R42 to R47, R251: the operations that alone write FW's toggles, the SIE's parity pointers, the status queue,
memory and `addr` and clear `pending`; the reserved byte is written by none. That the parameters, FW's list and the
schedule are state no operation writes is the model's choice (log entries 2 and 4). -/
def Obligations.OnlyTheirWritersWrite : Prop :=
  ∀ (i : Instr) (s t : State), exec i s = .next t →
    t.cfg = s.cfg ∧ t.prog = s.prog ∧ t.sched = s.sched ∧
    (t.fwBuf ≠ s.fwBuf → ∃ ep dir, i = .flipBuf ep dir ∨ i = .clearToggles ep dir) ∧
    (t.fwData ≠ s.fwData → ∃ ep dir, i = .flipData ep dir ∨ i = .clearToggles ep dir) ∧
    (t.sieOdd ≠ s.sieOdd → i = .oddReset ∨ ∃ tok ep pid payload ack lax, i = sieInstr tok ep pid payload ack lax) ∧
    (t.statQ ≠ s.statQ → i = .statPop ∨ ∃ tok ep pid payload ack lax, i = sieInstr tok ep pid payload ack lax) ∧
    (t.mem ≠ s.mem → (∃ v addr, i = .memStore1 v addr) ∨ (∃ v addr, i = .memStore2 v addr) ∨
      (∃ v addr, i = .memStore4 v addr) ∨ (∃ ep pid payload lax, i = .sieSetup ep pid payload lax) ∨
      (∃ ep pid payload, i = .sieOut ep pid payload)) ∧
    (s.pending = true → t.pending = false → i = .barrier ∨ ∃ h ctrl bc addr, i = .bdtInit h ctrl bc addr) ∧
    (∀ h, (t.entry h).addr ≠ (s.entry h).addr → (∃ ctrl bc addr, i = .bdtInit h ctrl bc addr) ∨
      ∃ addr, i = .bdtSetAddr h addr) ∧
    (∀ h, (t.entry h).rsvd = (s.entry h).rsvd)

/-- R40, R254: an entry becomes `Acquired` again only by a barrier after FW has observed the handback. -/
def Obligations.AcquireNeedsObservationAndBarrier : Prop :=
  ∀ (i : Instr) (s t : State) (h : Handle), exec i s = .next t →
    ((s.entry h).sync ≠ .acquired → (t.entry h).sync = .acquired →
      (s.entry h).sync = .observed ∧ (i = .barrier ∨ ∃ h' ctrl bc addr, i = .bdtInit h' ctrl bc addr)) ∧
    ((s.entry h).sync ≠ .observed → (t.entry h).sync = .observed →
      (s.entry h).sync = .completed ∧ OwnedByMcu (s.entry h) ∧ i = .bdtReadCtrl h)

/-- The invariant holds right after reset, in the default configuration the model chose (log entry 2). -/
def Obligations.InvariantAtReset : Prop := Inv State.reset

/-- Every step keeps the invariant, from every state that has it: memory stays in canonical form, the status queue within
its depth and holding only words the SIE posts, released entries fully written and acquired, handed-back entries fully
written, the faults a set. -/
def Obligations.StepKeepsInvariant : Prop :=
  ∀ s t : State, Inv s → step s = .next t → Inv t
end

