-- ==== Sys2Proof/Laws/Bits.lean ====
section
/-! SUPPORT. Bit fields as numbers: what a field of a word, and a word built from fields, is in arithmetic. -/

namespace Sys2Proof.Machine

theorem extract_toNat {w : Nat} (v : BitVec w) (k n : Nat) :
    (v.extractLsb' k n).toNat = v.toNat / 2 ^ k % 2 ^ n := by
  rw [BitVec.extractLsb'_toNat, Nat.shiftRight_eq_div_pow]

theorem extract_eq_ofNat {w : Nat} (v : BitVec w) (k n : Nat) :
    v.extractLsb' k n = BitVec.ofNat n (v.toNat / 2 ^ k) := by
  apply BitVec.eq_of_toNat_eq
  rw [extract_toNat, BitVec.toNat_ofNat]

theorem append_toNat {n m : Nat} (a : BitVec n) (b : BitVec m) : (a ++ b).toNat = a.toNat * 2 ^ m + b.toNat := by
  rw [BitVec.toNat_append, Nat.shiftLeft_eq, Nat.mul_comm, ← Nat.two_pow_add_eq_or_of_lt b.isLt]

theorem ofBool_toNat (b : Bool) : (bit1 b).toNat = bitNat b := by
  cases b <;> rfl

theorem isSet_eq (b : BitVec 1) : isSet b = (b.toNat == 1) := by
  revert b; decide

theorem isSet_extract {w : Nat} (v : BitVec w) (k : Nat) : isSet (v.extractLsb' k 1) = v.getLsbD k := by
  simp [isSet]

theorem ctrlIsSie_eq (v : Byte) : ctrlIsSie v = v[7] := by
  rw [ctrlIsSie, ctrlOwn, isSet_extract, BitVec.getLsbD_eq_getElem (by decide)]

theorem getLsbD_eq_div {w : Nat} (v : BitVec w) (k : Nat) : v.getLsbD k = (v.toNat / 2 ^ k % 2 == 1) := by
  rw [BitVec.getLsbD, Nat.testBit_eq_decide_div_mod_eq]
  by_cases h : v.toNat / 2 ^ k % 2 = 1 <;> simp [h]

/-- The word 0 of a record in arithmetic. -/
theorem word0_toNat (op : Byte) (ep : Ep) (dir par : BitVec 1) (sz : BitVec 2) (b : Byte) :
    (word0 op ep dir par sz b).toNat =
      op.toNat * 2 ^ 24 + ep.toNat * 2 ^ 20 + dir.toNat * 2 ^ 19 + par.toNat * 2 ^ 18 + sz.toNat * 2 ^ 16 +
        b.toNat * 2 ^ 8 := by
  simp only [word0, append_toNat, BitVec.toNat_ofNat]
  omega

end Sys2Proof.Machine
end

