-- ==== Sys2Proof/Laws/Decode.lean ====
section
/-! SUPPORT. The fields of encoded operations: what each field of a record or token reads as after encoding, and how
a record is decoded once its operation code is known. -/

namespace Sys2Proof

open Sys2Proof.Machine

/-! ## Records by their numbers -/

/-- A record whose bits 31:24 are the code of `o` and whose bits 7:0 are 0 is decoded as `o` (R102, R105). -/
theorem decode_of_op {r : Record} {n : Nat} {o : Opcode} (h1 : r.w0.toNat / 2 ^ 24 = n)
    (h2 : r.w0.toNat % 2 ^ 8 = 0) (ho : Opcode.ofByte (BitVec.ofNat 8 n) = some o) :
    decode (.command r) = decodeOp r o := by
  have hl : r.low = 0#8 := by
    apply BitVec.eq_of_toNat_eq
    simp only [Record.low, extract_toNat, BitVec.toNat_ofNat]; omega
  have hop : r.op = BitVec.ofNat 8 n := by rw [Record.op, extract_eq_ofNat, h1]
  simp [decode, decodeRecord, hl, hop, ho]

theorem sz_toNat (r : Record) : r.sz.toNat = r.w0.toNat / 2 ^ 16 % 4 := by
  simp only [Record.sz, extract_toNat]; rfl

/-! ## The fields of an encoded record -/

section Fields

variable (op : Byte) (ep : Ep) (dir par : BitVec 1) (sz : BitVec 2) (b : Byte) (v a : Word)

theorem op_word0 : Record.op ⟨word0 op ep dir par sz b, v, a⟩ = op := by
  apply BitVec.eq_of_toNat_eq
  simp only [Record.op, extract_toNat, word0_toNat]; omega

theorem ep_word0 : Record.ep ⟨word0 op ep dir par sz b, v, a⟩ = ep := by
  apply BitVec.eq_of_toNat_eq
  simp only [Record.ep, extract_toNat, word0_toNat]; omega

theorem dirBit_word0 : Record.dirBit ⟨word0 op ep dir par sz b, v, a⟩ = dir := by
  apply BitVec.eq_of_toNat_eq
  simp only [Record.dirBit, extract_toNat, word0_toNat]; omega

theorem parBit_word0 : Record.parBit ⟨word0 op ep dir par sz b, v, a⟩ = par := by
  apply BitVec.eq_of_toNat_eq
  simp only [Record.parBit, extract_toNat, word0_toNat]; omega

theorem sz_word0 : Record.sz ⟨word0 op ep dir par sz b, v, a⟩ = sz := by
  apply BitVec.eq_of_toNat_eq
  simp only [Record.sz, extract_toNat, word0_toNat]; omega

theorem b_word0 : Record.b ⟨word0 op ep dir par sz b, v, a⟩ = b := by
  apply BitVec.eq_of_toNat_eq
  simp only [Record.b, extract_toNat, word0_toNat]; omega

theorem low_word0 : Record.low ⟨word0 op ep dir par sz b, v, a⟩ = 0#8 := by
  apply BitVec.eq_of_toNat_eq
  simp only [Record.low, extract_toNat, word0_toNat, BitVec.toNat_ofNat]; omega

end Fields

theorem dir_word0 (op : Byte) (ep : Ep) (d : Dir) (par : BitVec 1) (sz : BitVec 2) (b : Byte) (v a : Word) :
    Record.dir ⟨word0 op ep (bit1 d.bit) par sz b, v, a⟩ = d := by
  rw [Record.dir, dirBit_word0]; cases d <;> rfl

theorem par_word0 (op : Byte) (ep : Ep) (dir : BitVec 1) (p : Par) (sz : BitVec 2) (b : Byte) (v a : Word) :
    Record.par ⟨word0 op ep dir (bit1 p.bit) sz b, v, a⟩ = p := by
  rw [Record.par, parBit_word0]; cases p <;> rfl

theorem ofByte_toByte (o : Opcode) : Opcode.ofByte o.toByte = some o := by cases o <;> rfl

theorem decode_word0 (o : Opcode) (ep : Ep) (dir par : BitVec 1) (sz : BitVec 2) (b : Byte) (v a : Word) :
    decode (.command ⟨word0 o.toByte ep dir par sz b, v, a⟩) = decodeOp ⟨word0 o.toByte ep dir par sz b, v, a⟩ o := by
  simp [decode, decodeRecord, op_word0, low_word0, ofByte_toByte]

theorem low8_of_word (b : Byte) : BitVec.extractLsb' 0 8 (0#24 ++ b : Word) = b := by
  apply BitVec.eq_of_toNat_eq
  simp only [extract_toNat, append_toNat, BitVec.toNat_ofNat]; omega

theorem low16_of_word (b : Half) : BitVec.extractLsb' 0 16 (0#16 ++ b : Word) = b := by
  apply BitVec.eq_of_toNat_eq
  simp only [extract_toNat, append_toNat, BitVec.toNat_ofNat]; omega

theorem bytesOfWord_wordAt {s : List Byte} (h : s.length = 8) :
    bytesOfWord (wordAt s 0) ++ bytesOfWord (wordAt s 4) = s := by
  match s, h with
  | [b0, b1, b2, b3, b4, b5, b6, b7], _ =>
    simp only [bytesOfWord, wordAt, byteAt, List.cons_append, List.nil_append, List.cons.injEq, and_true,
      List.getD_cons_zero, List.getD_cons_succ]
    refine ⟨?_, ?_, ?_, ?_, ?_, ?_, ?_, ?_⟩ <;> apply BitVec.eq_of_toNat_eq <;>
      simp only [extract_toNat, append_toNat] <;> omega

/-! ## The fields of an encoded token -/

theorem pidByte_tokenFor (t : Tok) (ep : Ep) : tokenPidByte (tokenFor t ep) = pidByte t.pid := by
  apply BitVec.eq_of_toNat_eq
  simp only [tokenPidByte, tokenFor, tokenOf, extract_toNat, append_toNat]; omega

theorem endp_tokenFor (t : Tok) (ep : Ep) : tokenEndp (tokenFor t ep) = ep := by
  apply BitVec.eq_of_toNat_eq
  simp only [tokenEndp, tokenFor, tokenOf, extract_toNat, append_toNat]; omega

theorem ofPidByte_tokenFor (t : Tok) (ep : Ep) : Tok.ofPidByte (tokenPidByte (tokenFor t ep)) = some t := by
  rw [pidByte_tokenFor]; cases t <;> rfl

end Sys2Proof
end

