-- ==== Sys2Proof/Laws/Memory.lean ====
section
/-! SUPPORT. Shared memory: what a read sees after a write, and that every memory operation keeps the canonical form. -/

namespace Sys2Proof.Machine

theorem Memory.read_write_same (m : Memory) (a : Nat) (v : Byte) : (m.write a v).read a = some v := by
  induction m with
  | nil => simp [Memory.write, Memory.read]
  | cons c rest ih =>
    obtain ⟨b, w⟩ := c
    simp only [Memory.write]
    split
    · simp [Memory.read]
    · split
      · simp [Memory.read]
      · simp [Memory.read, *]

theorem Memory.read_write_ne (m : Memory) {a b : Nat} (v : Byte) (h : b ≠ a) :
    (m.write a v).read b = m.read b := by
  induction m with
  | nil => simp [Memory.write, Memory.read, h]
  | cons c rest ih =>
    obtain ⟨x, w⟩ := c
    simp only [Memory.write]
    split
    · simp [Memory.read, h]
    · split
      · subst_vars; simp [Memory.read, h]
      · simp [Memory.read, ih]

theorem Memory.read_write (m : Memory) (a b : Nat) (v : Byte) :
    (m.write a v).read b = if b = a then some v else m.read b := by
  split
  · subst_vars; exact m.read_write_same _ _
  · exact m.read_write_ne v ‹_›

/-- A byte outside the written range reads as before. -/
theorem Memory.read_writeBytes_outside (m : Memory) (a b : Nat) (vs : List Byte)
    (h : b < a ∨ a + vs.length ≤ b) : (m.writeBytes a vs).read b = m.read b := by
  induction vs generalizing m a with
  | nil => rfl
  | cons v rest ih =>
    simp only [List.length_cons] at h
    rw [Memory.writeBytes, ih _ _ (by omega), Memory.read_write_ne _ _ (by omega)]

/-- Byte `k` of the written range reads as byte `k` of the list. -/
theorem Memory.read_writeBytes_inside (m : Memory) (a k : Nat) (vs : List Byte) (h : k < vs.length) :
    (m.writeBytes a vs).read (a + k) = some vs[k] := by
  induction vs generalizing m a k with
  | nil => simp at h
  | cons v rest ih =>
    cases k with
    | zero =>
      rw [Memory.writeBytes, Memory.read_writeBytes_outside _ _ _ _ (by omega)]
      simpa using m.read_write_same a v
    | succ k =>
      have hk : k < rest.length := by simpa using h
      have := ih (m.write a v) (a + 1) k hk
      rw [Memory.writeBytes, show a + (k + 1) = a + 1 + k by omega, this]
      rfl

theorem Memory.mem_write {m : Memory} {a : Nat} {v : Byte} {c : Host.Cell} (h : c ∈ m.write a v) :
    c = (a, v) ∨ c ∈ m := by
  induction m with
  | nil => simpa [Memory.write] using h
  | cons x rest ih =>
    obtain ⟨b, w⟩ := x
    simp only [Memory.write] at h
    split at h
    · simpa using h
    · split at h
      · rcases List.mem_cons.1 h with h | h
        · exact .inl h
        · exact .inr (List.mem_cons_of_mem _ h)
      · rcases List.mem_cons.1 h with h | h
        · exact .inr (h ▸ List.mem_cons_self)
        · rcases ih h with h | h
          · exact .inl h
          · exact .inr (List.mem_cons_of_mem _ h)

/-- Writing one byte inside the 32-bit space keeps the canonical form. -/
theorem Memory.write_wf {m : Memory} (hm : m.wf) {a : Nat} (v : Byte) (ha : a < 2 ^ 32) : (m.write a v).wf := by
  refine ⟨?_, fun c hc => ?_⟩
  · have hs := hm.1
    clear hm
    induction m with
    | nil => simp [Memory.write]
    | cons x rest ih =>
      obtain ⟨b, w⟩ := x
      simp only [List.map_cons, List.pairwise_cons, List.mem_map] at hs
      simp only [Memory.write]
      split
      · rename_i hab
        simp only [List.map_cons, List.pairwise_cons, List.mem_cons, List.mem_map]
        refine ⟨?_, fun y hy => hs.1 y hy, hs.2⟩
        rintro y (rfl | hy)
        · exact hab
        · exact lt_trans hab (hs.1 y hy)
      · split
        · subst_vars
          simp only [List.map_cons, List.pairwise_cons, List.mem_map]
          exact hs
        · simp only [List.map_cons, List.pairwise_cons, List.mem_map]
          refine ⟨?_, ih hs.2⟩
          rintro y ⟨c, hc, rfl⟩
          rcases Memory.mem_write hc with h | h
          · subst h; show b < a; omega
          · exact hs.1 _ ⟨c, h, rfl⟩
  · rcases Memory.mem_write hc with h | h
    · subst h; exact ⟨ha, by simp [Memory.unlisted]⟩
    · exact hm.2 c h

/-- Writing a range inside the 32-bit space keeps the canonical form. -/
theorem Memory.writeBytes_wf {m : Memory} (hm : m.wf) (a : Nat) (vs : List Byte) (ha : a + vs.length ≤ 2 ^ 32) :
    (m.writeBytes a vs).wf := by
  induction vs generalizing m a with
  | nil => exact hm
  | cons v rest ih =>
    simp only [List.length_cons] at ha
    exact ih (Memory.write_wf hm v (by omega)) _ (by omega)

theorem memOf_wf (init : List (Word × Byte)) : (memOf init).wf := by
  suffices h : ∀ m : Memory, m.wf → (init.foldl (fun m c => Memory.write m c.1.toNat c.2) m).wf from
    h [] (by simp [Memory.wf])
  induction init with
  | nil => exact fun m hm => hm
  | cons c rest ih => exact fun m hm => ih _ (Memory.write_wf hm _ c.1.isLt)

theorem reset_mem_wf : State.reset.mem.wf := by
  simp [State.reset, Memory.wf]

@[simp] theorem length_leBytes (n : Nat) (v : Word) : (leBytes n v).length = n := by
  simp [leBytes]

@[simp] theorem length_loadBytes (s : State) (a n : Nat) : (s.loadBytes a n).length = n := by
  simp [State.loadBytes]

@[simp] theorem length_dmaBytes (s : State) (a n : Nat) : (s.dmaBytes a n).length = n := by
  simp [State.dmaBytes]

/-- Byte `k` of a stored value (R15, R60). -/
theorem getElem_leBytes (n : Nat) (v : Word) (k : Nat) (h : k < (leBytes n v).length) :
    (leBytes n v)[k] = BitVec.ofNat 8 (v.toNat / 256 ^ k) := by
  simp [leBytes, extract_eq_ofNat, Nat.pow_mul]

theorem leWord_cons (b : Byte) (rest : List Byte) (h : rest.length ≤ 3) :
    (leWord rest).toNat < 256 ^ rest.length ∧
      (leWord (b :: rest)).toNat = b.toNat + 256 * (leWord rest).toNat := by
  induction rest generalizing b with
  | nil =>
    refine ⟨by simp [leWord], ?_⟩
    have := b.isLt
    simp [leWord]
    omega
  | cons c rest ih =>
    simp only [List.length_cons] at h
    obtain ⟨hl, he⟩ := ih c (by omega)
    have hc := c.isLt
    have hlt : (leWord (c :: rest)).toNat < 256 ^ (rest.length + 1) := by
      rw [he, Nat.pow_succ]; omega
    refine ⟨by simpa using hlt, ?_⟩
    have hb := b.isLt
    have hbig : (leWord (c :: rest)).toNat < 2 ^ 24 :=
      Nat.lt_of_lt_of_le hlt ((Nat.pow_le_pow_right (by decide) (by omega)).trans (by decide : 256 ^ 3 ≤ 2 ^ 24))
    rw [leWord, BitVec.toNat_or, BitVec.toNat_shiftLeft, BitVec.toNat_setWidth, Nat.shiftLeft_eq,
      Nat.mod_eq_of_lt (by omega : (leWord (c :: rest)).toNat * 2 ^ 8 < 2 ^ 32),
      Nat.mod_eq_of_lt (by omega : b.toNat < 2 ^ 32), Nat.mul_comm,
      ← Nat.two_pow_add_eq_or_of_lt hb]
    omega

/-- The value of at most four bytes, lowest first (R60): its bound and its bytes. -/
theorem leWord_bytes (l : List Byte) (h : l.length ≤ 4) :
    (leWord l).toNat < 256 ^ l.length ∧
      ∀ k (hk : k < l.length), (leWord l).toNat / 256 ^ k % 256 = l[k].toNat := by
  induction l with
  | nil => simp [leWord]
  | cons b rest ih =>
    simp only [List.length_cons] at h
    obtain ⟨hl, he⟩ := leWord_cons b rest (by omega)
    have hb := b.isLt
    refine ⟨by rw [he, List.length_cons, Nat.pow_succ]; omega, fun k hk => ?_⟩
    rw [he]
    cases k with
    | zero => simp only [Nat.pow_zero, Nat.div_one, List.getElem_cons_zero]; omega
    | succ k =>
      rw [Nat.pow_succ, Nat.mul_comm (256 ^ k), ← Nat.div_div_eq_div_mul,
        show (b.toNat + 256 * (leWord rest).toNat) / 256 = (leWord rest).toNat by omega]
      exact (ih (by omega)).2 k (by simpa using hk)

end Sys2Proof.Machine
end

