-- ==== Sys2Proof/Laws/Index.lean ====
section
/-! SUPPORT. No two handles share an index and no two channels share a place (R33, R170), and every handle is listed. -/

namespace Sys2Proof.Machine

theorem bitNat_injective {a b : Bool} (h : bitNat a = bitNat b) : a = b := by
  cases a <;> cases b <;> simp_all [bitNat]

theorem dir_bit_injective {a b : Dir} (h : a.bit = b.bit) : a = b := by
  cases a <;> cases b <;> simp_all [Sys2Proof.Dir.bit]

theorem par_bit_injective {a b : Par} (h : a.bit = b.bit) : a = b := by
  cases a <;> cases b <;> simp_all [Sys2Proof.Par.bit]

theorem handleNumber_injective {h h' : Handle} (he : handleNumber h = handleNumber h') : h = h' := by
  have h2 := bitNat_le h.dir.bit
  have h3 := bitNat_le h.par.bit
  have h2' := bitNat_le h'.dir.bit
  have h3' := bitNat_le h'.par.bit
  unfold handleNumber at he
  have hep : h.ep = h'.ep := BitVec.eq_of_toNat_eq (by omega)
  have hd : h.dir = h'.dir := dir_bit_injective (bitNat_injective (by omega))
  have hp : h.par = h'.par := par_bit_injective (bitNat_injective (by omega))
  cases h; cases h'; simp_all

theorem handleIndex_injective {h h' : Handle} (he : handleIndex h = handleIndex h') : h = h' :=
  handleNumber_injective (by simpa [handleIndex] using he)

theorem channelIndex_injective {c c' : Channel} (he : channelIndex c = channelIndex c') : c = c' := by
  have h2 := bitNat_le c.dir.bit
  have h2' := bitNat_le c'.dir.bit
  have he' : channelNumber c = channelNumber c' := by simpa [channelIndex] using he
  unfold channelNumber at he'
  have hep : c.ep = c'.ep := BitVec.eq_of_toNat_eq (by omega)
  have hd : c.dir = c'.dir := dir_bit_injective (bitNat_injective (by omega))
  cases c; cases c'; simp_all

theorem mem_allHandles (h : Handle) : h ∈ allHandles := by
  obtain ⟨ep, dir, par⟩ := h
  simp only [allHandles, List.mem_flatMap, List.mem_range, List.mem_map]
  exact ⟨ep.toNat, ep.isLt, dir, by cases dir <;> simp, par, by cases par <;> simp, by simp⟩

end Sys2Proof.Machine
end

