-- ==== Sys2Proof/Laws/State.lean ====
section
/-! SUPPORT. One lemma per field per update of the state, so that no later proof unfolds a record update, and what each
accessor reads after each update. -/

namespace Sys2Proof.Machine

variable (s : State)


/-! ### setEntry -/

@[simp] theorem cfg_setEntry (h : Handle) (e : BdtEntry) : (s.setEntry h e).cfg = s.cfg := rfl
@[simp] theorem prog_setEntry (h : Handle) (e : BdtEntry) : (s.setEntry h e).prog = s.prog := rfl
@[simp] theorem pc_setEntry (h : Handle) (e : BdtEntry) : (s.setEntry h e).pc = s.pc := rfl
@[simp] theorem sched_setEntry (h : Handle) (e : BdtEntry) : (s.setEntry h e).sched = s.sched := rfl
@[simp] theorem bdt_setEntry (h : Handle) (e : BdtEntry) : (s.setEntry h e).bdt = s.bdt.set (handleIndex h) e := rfl
@[simp] theorem sieOdd_setEntry (h : Handle) (e : BdtEntry) : (s.setEntry h e).sieOdd = s.sieOdd := rfl
@[simp] theorem statQ_setEntry (h : Handle) (e : BdtEntry) : (s.setEntry h e).statQ = s.statQ := rfl
@[simp] theorem fwBuf_setEntry (h : Handle) (e : BdtEntry) : (s.setEntry h e).fwBuf = s.fwBuf := rfl
@[simp] theorem fwData_setEntry (h : Handle) (e : BdtEntry) : (s.setEntry h e).fwData = s.fwData := rfl
@[simp] theorem pending_setEntry (h : Handle) (e : BdtEntry) : (s.setEntry h e).pending = s.pending := rfl
@[simp] theorem mem_setEntry (h : Handle) (e : BdtEntry) : (s.setEntry h e).mem = s.mem := rfl
@[simp] theorem outLog_setEntry (h : Handle) (e : BdtEntry) : (s.setEntry h e).outLog = s.outLog := rfl
@[simp] theorem busTrace_setEntry (h : Handle) (e : BdtEntry) : (s.setEntry h e).busTrace = s.busTrace := rfl
@[simp] theorem faults_setEntry (h : Handle) (e : BdtEntry) : (s.setEntry h e).faults = s.faults := rfl
@[simp] theorem refused_setEntry (h : Handle) (e : BdtEntry) : (s.setEntry h e).refused = s.refused := rfl
@[simp] theorem draws_setEntry (h : Handle) (e : BdtEntry) : (s.setEntry h e).draws = s.draws := rfl

/-! ### setParity -/

@[simp] theorem cfg_setParity (c : Channel) (p : Par) : (s.setParity c p).cfg = s.cfg := rfl
@[simp] theorem prog_setParity (c : Channel) (p : Par) : (s.setParity c p).prog = s.prog := rfl
@[simp] theorem pc_setParity (c : Channel) (p : Par) : (s.setParity c p).pc = s.pc := rfl
@[simp] theorem sched_setParity (c : Channel) (p : Par) : (s.setParity c p).sched = s.sched := rfl
@[simp] theorem bdt_setParity (c : Channel) (p : Par) : (s.setParity c p).bdt = s.bdt := rfl
@[simp] theorem sieOdd_setParity (c : Channel) (p : Par) : (s.setParity c p).sieOdd = s.sieOdd.set (channelIndex c) p := rfl
@[simp] theorem statQ_setParity (c : Channel) (p : Par) : (s.setParity c p).statQ = s.statQ := rfl
@[simp] theorem fwBuf_setParity (c : Channel) (p : Par) : (s.setParity c p).fwBuf = s.fwBuf := rfl
@[simp] theorem fwData_setParity (c : Channel) (p : Par) : (s.setParity c p).fwData = s.fwData := rfl
@[simp] theorem pending_setParity (c : Channel) (p : Par) : (s.setParity c p).pending = s.pending := rfl
@[simp] theorem mem_setParity (c : Channel) (p : Par) : (s.setParity c p).mem = s.mem := rfl
@[simp] theorem outLog_setParity (c : Channel) (p : Par) : (s.setParity c p).outLog = s.outLog := rfl
@[simp] theorem busTrace_setParity (c : Channel) (p : Par) : (s.setParity c p).busTrace = s.busTrace := rfl
@[simp] theorem faults_setParity (c : Channel) (p : Par) : (s.setParity c p).faults = s.faults := rfl
@[simp] theorem refused_setParity (c : Channel) (p : Par) : (s.setParity c p).refused = s.refused := rfl
@[simp] theorem draws_setParity (c : Channel) (p : Par) : (s.setParity c p).draws = s.draws := rfl

/-! ### setBufToggle -/

@[simp] theorem cfg_setBufToggle (c : Channel) (t : BufferToggle) : (s.setBufToggle c t).cfg = s.cfg := rfl
@[simp] theorem prog_setBufToggle (c : Channel) (t : BufferToggle) : (s.setBufToggle c t).prog = s.prog := rfl
@[simp] theorem pc_setBufToggle (c : Channel) (t : BufferToggle) : (s.setBufToggle c t).pc = s.pc := rfl
@[simp] theorem sched_setBufToggle (c : Channel) (t : BufferToggle) : (s.setBufToggle c t).sched = s.sched := rfl
@[simp] theorem bdt_setBufToggle (c : Channel) (t : BufferToggle) : (s.setBufToggle c t).bdt = s.bdt := rfl
@[simp] theorem sieOdd_setBufToggle (c : Channel) (t : BufferToggle) : (s.setBufToggle c t).sieOdd = s.sieOdd := rfl
@[simp] theorem statQ_setBufToggle (c : Channel) (t : BufferToggle) : (s.setBufToggle c t).statQ = s.statQ := rfl
@[simp] theorem fwBuf_setBufToggle (c : Channel) (t : BufferToggle) : (s.setBufToggle c t).fwBuf = s.fwBuf.set (channelIndex c) t := rfl
@[simp] theorem fwData_setBufToggle (c : Channel) (t : BufferToggle) : (s.setBufToggle c t).fwData = s.fwData := rfl
@[simp] theorem pending_setBufToggle (c : Channel) (t : BufferToggle) : (s.setBufToggle c t).pending = s.pending := rfl
@[simp] theorem mem_setBufToggle (c : Channel) (t : BufferToggle) : (s.setBufToggle c t).mem = s.mem := rfl
@[simp] theorem outLog_setBufToggle (c : Channel) (t : BufferToggle) : (s.setBufToggle c t).outLog = s.outLog := rfl
@[simp] theorem busTrace_setBufToggle (c : Channel) (t : BufferToggle) : (s.setBufToggle c t).busTrace = s.busTrace := rfl
@[simp] theorem faults_setBufToggle (c : Channel) (t : BufferToggle) : (s.setBufToggle c t).faults = s.faults := rfl
@[simp] theorem refused_setBufToggle (c : Channel) (t : BufferToggle) : (s.setBufToggle c t).refused = s.refused := rfl
@[simp] theorem draws_setBufToggle (c : Channel) (t : BufferToggle) : (s.setBufToggle c t).draws = s.draws := rfl

/-! ### setDataToggle -/

@[simp] theorem cfg_setDataToggle (c : Channel) (t : DataToggle) : (s.setDataToggle c t).cfg = s.cfg := rfl
@[simp] theorem prog_setDataToggle (c : Channel) (t : DataToggle) : (s.setDataToggle c t).prog = s.prog := rfl
@[simp] theorem pc_setDataToggle (c : Channel) (t : DataToggle) : (s.setDataToggle c t).pc = s.pc := rfl
@[simp] theorem sched_setDataToggle (c : Channel) (t : DataToggle) : (s.setDataToggle c t).sched = s.sched := rfl
@[simp] theorem bdt_setDataToggle (c : Channel) (t : DataToggle) : (s.setDataToggle c t).bdt = s.bdt := rfl
@[simp] theorem sieOdd_setDataToggle (c : Channel) (t : DataToggle) : (s.setDataToggle c t).sieOdd = s.sieOdd := rfl
@[simp] theorem statQ_setDataToggle (c : Channel) (t : DataToggle) : (s.setDataToggle c t).statQ = s.statQ := rfl
@[simp] theorem fwBuf_setDataToggle (c : Channel) (t : DataToggle) : (s.setDataToggle c t).fwBuf = s.fwBuf := rfl
@[simp] theorem fwData_setDataToggle (c : Channel) (t : DataToggle) : (s.setDataToggle c t).fwData = s.fwData.set (channelIndex c) t := rfl
@[simp] theorem pending_setDataToggle (c : Channel) (t : DataToggle) : (s.setDataToggle c t).pending = s.pending := rfl
@[simp] theorem mem_setDataToggle (c : Channel) (t : DataToggle) : (s.setDataToggle c t).mem = s.mem := rfl
@[simp] theorem outLog_setDataToggle (c : Channel) (t : DataToggle) : (s.setDataToggle c t).outLog = s.outLog := rfl
@[simp] theorem busTrace_setDataToggle (c : Channel) (t : DataToggle) : (s.setDataToggle c t).busTrace = s.busTrace := rfl
@[simp] theorem faults_setDataToggle (c : Channel) (t : DataToggle) : (s.setDataToggle c t).faults = s.faults := rfl
@[simp] theorem refused_setDataToggle (c : Channel) (t : DataToggle) : (s.setDataToggle c t).refused = s.refused := rfl
@[simp] theorem draws_setDataToggle (c : Channel) (t : DataToggle) : (s.setDataToggle c t).draws = s.draws := rfl

/-! ### advance -/

@[simp] theorem cfg_advance : s.advance.cfg = s.cfg := rfl
@[simp] theorem prog_advance : s.advance.prog = s.prog := rfl
@[simp] theorem pc_advance : s.advance.pc = s.pc + 1 := rfl
@[simp] theorem sched_advance : s.advance.sched = s.sched := rfl
@[simp] theorem bdt_advance : s.advance.bdt = s.bdt := rfl
@[simp] theorem sieOdd_advance : s.advance.sieOdd = s.sieOdd := rfl
@[simp] theorem statQ_advance : s.advance.statQ = s.statQ := rfl
@[simp] theorem fwBuf_advance : s.advance.fwBuf = s.fwBuf := rfl
@[simp] theorem fwData_advance : s.advance.fwData = s.fwData := rfl
@[simp] theorem pending_advance : s.advance.pending = s.pending := rfl
@[simp] theorem mem_advance : s.advance.mem = s.mem := rfl
@[simp] theorem outLog_advance : s.advance.outLog = s.outLog := rfl
@[simp] theorem busTrace_advance : s.advance.busTrace = s.busTrace := rfl
@[simp] theorem faults_advance : s.advance.faults = s.faults := rfl
@[simp] theorem refused_advance : s.advance.refused = s.refused := rfl
@[simp] theorem draws_advance : s.advance.draws = s.draws := rfl

/-! ### out -/

@[simp] theorem cfg_out (v : Value) : (s.out v).cfg = s.cfg := rfl
@[simp] theorem prog_out (v : Value) : (s.out v).prog = s.prog := rfl
@[simp] theorem pc_out (v : Value) : (s.out v).pc = s.pc := rfl
@[simp] theorem sched_out (v : Value) : (s.out v).sched = s.sched := rfl
@[simp] theorem bdt_out (v : Value) : (s.out v).bdt = s.bdt := rfl
@[simp] theorem sieOdd_out (v : Value) : (s.out v).sieOdd = s.sieOdd := rfl
@[simp] theorem statQ_out (v : Value) : (s.out v).statQ = s.statQ := rfl
@[simp] theorem fwBuf_out (v : Value) : (s.out v).fwBuf = s.fwBuf := rfl
@[simp] theorem fwData_out (v : Value) : (s.out v).fwData = s.fwData := rfl
@[simp] theorem pending_out (v : Value) : (s.out v).pending = s.pending := rfl
@[simp] theorem mem_out (v : Value) : (s.out v).mem = s.mem := rfl
@[simp] theorem outLog_out (v : Value) : (s.out v).outLog = s.outLog ++ [v] := rfl
@[simp] theorem busTrace_out (v : Value) : (s.out v).busTrace = s.busTrace := rfl
@[simp] theorem faults_out (v : Value) : (s.out v).faults = s.faults := rfl
@[simp] theorem refused_out (v : Value) : (s.out v).refused = s.refused := rfl
@[simp] theorem draws_out (v : Value) : (s.out v).draws = s.draws := rfl

/-! ### bus -/

@[simp] theorem cfg_bus (e : BusEvent) : (s.bus e).cfg = s.cfg := rfl
@[simp] theorem prog_bus (e : BusEvent) : (s.bus e).prog = s.prog := rfl
@[simp] theorem pc_bus (e : BusEvent) : (s.bus e).pc = s.pc := rfl
@[simp] theorem sched_bus (e : BusEvent) : (s.bus e).sched = s.sched := rfl
@[simp] theorem bdt_bus (e : BusEvent) : (s.bus e).bdt = s.bdt := rfl
@[simp] theorem sieOdd_bus (e : BusEvent) : (s.bus e).sieOdd = s.sieOdd := rfl
@[simp] theorem statQ_bus (e : BusEvent) : (s.bus e).statQ = s.statQ := rfl
@[simp] theorem fwBuf_bus (e : BusEvent) : (s.bus e).fwBuf = s.fwBuf := rfl
@[simp] theorem fwData_bus (e : BusEvent) : (s.bus e).fwData = s.fwData := rfl
@[simp] theorem pending_bus (e : BusEvent) : (s.bus e).pending = s.pending := rfl
@[simp] theorem mem_bus (e : BusEvent) : (s.bus e).mem = s.mem := rfl
@[simp] theorem outLog_bus (e : BusEvent) : (s.bus e).outLog = s.outLog := rfl
@[simp] theorem busTrace_bus (e : BusEvent) : (s.bus e).busTrace = s.busTrace ++ [e] := rfl
@[simp] theorem faults_bus (e : BusEvent) : (s.bus e).faults = s.faults := rfl
@[simp] theorem refused_bus (e : BusEvent) : (s.bus e).refused = s.refused := rfl
@[simp] theorem draws_bus (e : BusEvent) : (s.bus e).draws = s.draws := rfl

/-! ### pushStat -/

@[simp] theorem cfg_pushStat (b : Byte) : (s.pushStat b).cfg = s.cfg := rfl
@[simp] theorem prog_pushStat (b : Byte) : (s.pushStat b).prog = s.prog := rfl
@[simp] theorem pc_pushStat (b : Byte) : (s.pushStat b).pc = s.pc := rfl
@[simp] theorem sched_pushStat (b : Byte) : (s.pushStat b).sched = s.sched := rfl
@[simp] theorem bdt_pushStat (b : Byte) : (s.pushStat b).bdt = s.bdt := rfl
@[simp] theorem sieOdd_pushStat (b : Byte) : (s.pushStat b).sieOdd = s.sieOdd := rfl
@[simp] theorem statQ_pushStat (b : Byte) : (s.pushStat b).statQ = s.statQ ++ [b] := rfl
@[simp] theorem fwBuf_pushStat (b : Byte) : (s.pushStat b).fwBuf = s.fwBuf := rfl
@[simp] theorem fwData_pushStat (b : Byte) : (s.pushStat b).fwData = s.fwData := rfl
@[simp] theorem pending_pushStat (b : Byte) : (s.pushStat b).pending = s.pending := rfl
@[simp] theorem mem_pushStat (b : Byte) : (s.pushStat b).mem = s.mem := rfl
@[simp] theorem outLog_pushStat (b : Byte) : (s.pushStat b).outLog = s.outLog := rfl
@[simp] theorem busTrace_pushStat (b : Byte) : (s.pushStat b).busTrace = s.busTrace := rfl
@[simp] theorem faults_pushStat (b : Byte) : (s.pushStat b).faults = s.faults := rfl
@[simp] theorem refused_pushStat (b : Byte) : (s.pushStat b).refused = s.refused := rfl
@[simp] theorem draws_pushStat (b : Byte) : (s.pushStat b).draws = s.draws := rfl

/-! ### setStatQ -/

@[simp] theorem cfg_setStatQ (q : List Byte) : (s.setStatQ q).cfg = s.cfg := rfl
@[simp] theorem prog_setStatQ (q : List Byte) : (s.setStatQ q).prog = s.prog := rfl
@[simp] theorem pc_setStatQ (q : List Byte) : (s.setStatQ q).pc = s.pc := rfl
@[simp] theorem sched_setStatQ (q : List Byte) : (s.setStatQ q).sched = s.sched := rfl
@[simp] theorem bdt_setStatQ (q : List Byte) : (s.setStatQ q).bdt = s.bdt := rfl
@[simp] theorem sieOdd_setStatQ (q : List Byte) : (s.setStatQ q).sieOdd = s.sieOdd := rfl
@[simp] theorem statQ_setStatQ (q : List Byte) : (s.setStatQ q).statQ = q := rfl
@[simp] theorem fwBuf_setStatQ (q : List Byte) : (s.setStatQ q).fwBuf = s.fwBuf := rfl
@[simp] theorem fwData_setStatQ (q : List Byte) : (s.setStatQ q).fwData = s.fwData := rfl
@[simp] theorem pending_setStatQ (q : List Byte) : (s.setStatQ q).pending = s.pending := rfl
@[simp] theorem mem_setStatQ (q : List Byte) : (s.setStatQ q).mem = s.mem := rfl
@[simp] theorem outLog_setStatQ (q : List Byte) : (s.setStatQ q).outLog = s.outLog := rfl
@[simp] theorem busTrace_setStatQ (q : List Byte) : (s.setStatQ q).busTrace = s.busTrace := rfl
@[simp] theorem faults_setStatQ (q : List Byte) : (s.setStatQ q).faults = s.faults := rfl
@[simp] theorem refused_setStatQ (q : List Byte) : (s.setStatQ q).refused = s.refused := rfl
@[simp] theorem draws_setStatQ (q : List Byte) : (s.setStatQ q).draws = s.draws := rfl

/-! ### setPending -/

@[simp] theorem cfg_setPending (b : Bool) : (s.setPending b).cfg = s.cfg := rfl
@[simp] theorem prog_setPending (b : Bool) : (s.setPending b).prog = s.prog := rfl
@[simp] theorem pc_setPending (b : Bool) : (s.setPending b).pc = s.pc := rfl
@[simp] theorem sched_setPending (b : Bool) : (s.setPending b).sched = s.sched := rfl
@[simp] theorem bdt_setPending (b : Bool) : (s.setPending b).bdt = s.bdt := rfl
@[simp] theorem sieOdd_setPending (b : Bool) : (s.setPending b).sieOdd = s.sieOdd := rfl
@[simp] theorem statQ_setPending (b : Bool) : (s.setPending b).statQ = s.statQ := rfl
@[simp] theorem fwBuf_setPending (b : Bool) : (s.setPending b).fwBuf = s.fwBuf := rfl
@[simp] theorem fwData_setPending (b : Bool) : (s.setPending b).fwData = s.fwData := rfl
@[simp] theorem pending_setPending (b : Bool) : (s.setPending b).pending = b := rfl
@[simp] theorem mem_setPending (b : Bool) : (s.setPending b).mem = s.mem := rfl
@[simp] theorem outLog_setPending (b : Bool) : (s.setPending b).outLog = s.outLog := rfl
@[simp] theorem busTrace_setPending (b : Bool) : (s.setPending b).busTrace = s.busTrace := rfl
@[simp] theorem faults_setPending (b : Bool) : (s.setPending b).faults = s.faults := rfl
@[simp] theorem refused_setPending (b : Bool) : (s.setPending b).refused = s.refused := rfl
@[simp] theorem draws_setPending (b : Bool) : (s.setPending b).draws = s.draws := rfl

/-! ### setMem -/

@[simp] theorem cfg_setMem (m : Memory) : (s.setMem m).cfg = s.cfg := rfl
@[simp] theorem prog_setMem (m : Memory) : (s.setMem m).prog = s.prog := rfl
@[simp] theorem pc_setMem (m : Memory) : (s.setMem m).pc = s.pc := rfl
@[simp] theorem sched_setMem (m : Memory) : (s.setMem m).sched = s.sched := rfl
@[simp] theorem bdt_setMem (m : Memory) : (s.setMem m).bdt = s.bdt := rfl
@[simp] theorem sieOdd_setMem (m : Memory) : (s.setMem m).sieOdd = s.sieOdd := rfl
@[simp] theorem statQ_setMem (m : Memory) : (s.setMem m).statQ = s.statQ := rfl
@[simp] theorem fwBuf_setMem (m : Memory) : (s.setMem m).fwBuf = s.fwBuf := rfl
@[simp] theorem fwData_setMem (m : Memory) : (s.setMem m).fwData = s.fwData := rfl
@[simp] theorem pending_setMem (m : Memory) : (s.setMem m).pending = s.pending := rfl
@[simp] theorem mem_setMem (m : Memory) : (s.setMem m).mem = m := rfl
@[simp] theorem outLog_setMem (m : Memory) : (s.setMem m).outLog = s.outLog := rfl
@[simp] theorem busTrace_setMem (m : Memory) : (s.setMem m).busTrace = s.busTrace := rfl
@[simp] theorem faults_setMem (m : Memory) : (s.setMem m).faults = s.faults := rfl
@[simp] theorem refused_setMem (m : Memory) : (s.setMem m).refused = s.refused := rfl
@[simp] theorem draws_setMem (m : Memory) : (s.setMem m).draws = s.draws := rfl

/-! ### useDraws -/

@[simp] theorem cfg_useDraws (n : Nat) : (s.useDraws n).cfg = s.cfg := rfl
@[simp] theorem prog_useDraws (n : Nat) : (s.useDraws n).prog = s.prog := rfl
@[simp] theorem pc_useDraws (n : Nat) : (s.useDraws n).pc = s.pc := rfl
@[simp] theorem sched_useDraws (n : Nat) : (s.useDraws n).sched = s.sched := rfl
@[simp] theorem bdt_useDraws (n : Nat) : (s.useDraws n).bdt = s.bdt := rfl
@[simp] theorem sieOdd_useDraws (n : Nat) : (s.useDraws n).sieOdd = s.sieOdd := rfl
@[simp] theorem statQ_useDraws (n : Nat) : (s.useDraws n).statQ = s.statQ := rfl
@[simp] theorem fwBuf_useDraws (n : Nat) : (s.useDraws n).fwBuf = s.fwBuf := rfl
@[simp] theorem fwData_useDraws (n : Nat) : (s.useDraws n).fwData = s.fwData := rfl
@[simp] theorem pending_useDraws (n : Nat) : (s.useDraws n).pending = s.pending := rfl
@[simp] theorem mem_useDraws (n : Nat) : (s.useDraws n).mem = s.mem := rfl
@[simp] theorem outLog_useDraws (n : Nat) : (s.useDraws n).outLog = s.outLog := rfl
@[simp] theorem busTrace_useDraws (n : Nat) : (s.useDraws n).busTrace = s.busTrace := rfl
@[simp] theorem faults_useDraws (n : Nat) : (s.useDraws n).faults = s.faults := rfl
@[simp] theorem refused_useDraws (n : Nat) : (s.useDraws n).refused = s.refused := rfl
@[simp] theorem draws_useDraws (n : Nat) : (s.useDraws n).draws = s.draws + n := rfl

/-! ### takeTurn -/

@[simp] theorem cfg_takeTurn : s.takeTurn.cfg = s.cfg := rfl
@[simp] theorem prog_takeTurn : s.takeTurn.prog = s.prog := rfl
@[simp] theorem pc_takeTurn : s.takeTurn.pc = s.pc := rfl
@[simp] theorem sched_takeTurn : s.takeTurn.sched = s.sched.tail := rfl
@[simp] theorem bdt_takeTurn : s.takeTurn.bdt = s.bdt := rfl
@[simp] theorem sieOdd_takeTurn : s.takeTurn.sieOdd = s.sieOdd := rfl
@[simp] theorem statQ_takeTurn : s.takeTurn.statQ = s.statQ := rfl
@[simp] theorem fwBuf_takeTurn : s.takeTurn.fwBuf = s.fwBuf := rfl
@[simp] theorem fwData_takeTurn : s.takeTurn.fwData = s.fwData := rfl
@[simp] theorem pending_takeTurn : s.takeTurn.pending = s.pending := rfl
@[simp] theorem mem_takeTurn : s.takeTurn.mem = s.mem := rfl
@[simp] theorem outLog_takeTurn : s.takeTurn.outLog = s.outLog := rfl
@[simp] theorem busTrace_takeTurn : s.takeTurn.busTrace = s.busTrace := rfl
@[simp] theorem faults_takeTurn : s.takeTurn.faults = s.faults := rfl
@[simp] theorem refused_takeTurn : s.takeTurn.refused = s.refused := rfl
@[simp] theorem draws_takeTurn : s.takeTurn.draws = s.draws := rfl

/-! ### addFault -/

@[simp] theorem cfg_addFault (r : FaultRecord) : (s.addFault r).cfg = s.cfg := rfl
@[simp] theorem prog_addFault (r : FaultRecord) : (s.addFault r).prog = s.prog := rfl
@[simp] theorem pc_addFault (r : FaultRecord) : (s.addFault r).pc = s.pc := rfl
@[simp] theorem sched_addFault (r : FaultRecord) : (s.addFault r).sched = s.sched := rfl
@[simp] theorem bdt_addFault (r : FaultRecord) : (s.addFault r).bdt = s.bdt := rfl
@[simp] theorem sieOdd_addFault (r : FaultRecord) : (s.addFault r).sieOdd = s.sieOdd := rfl
@[simp] theorem statQ_addFault (r : FaultRecord) : (s.addFault r).statQ = s.statQ := rfl
@[simp] theorem fwBuf_addFault (r : FaultRecord) : (s.addFault r).fwBuf = s.fwBuf := rfl
@[simp] theorem fwData_addFault (r : FaultRecord) : (s.addFault r).fwData = s.fwData := rfl
@[simp] theorem pending_addFault (r : FaultRecord) : (s.addFault r).pending = s.pending := rfl
@[simp] theorem mem_addFault (r : FaultRecord) : (s.addFault r).mem = s.mem := rfl
@[simp] theorem outLog_addFault (r : FaultRecord) : (s.addFault r).outLog = s.outLog := rfl
@[simp] theorem busTrace_addFault (r : FaultRecord) : (s.addFault r).busTrace = s.busTrace := rfl
@[simp] theorem faults_addFault (r : FaultRecord) : (s.addFault r).faults = if r ∈ s.faults then s.faults else s.faults ++ [r] := rfl
@[simp] theorem refused_addFault (r : FaultRecord) : (s.addFault r).refused = s.refused := rfl
@[simp] theorem draws_addFault (r : FaultRecord) : (s.addFault r).draws = s.draws := rfl

/-! ### setRefused -/

@[simp] theorem cfg_setRefused (q : Refusal) : (s.setRefused q).cfg = s.cfg := rfl
@[simp] theorem prog_setRefused (q : Refusal) : (s.setRefused q).prog = s.prog := rfl
@[simp] theorem pc_setRefused (q : Refusal) : (s.setRefused q).pc = s.pc := rfl
@[simp] theorem sched_setRefused (q : Refusal) : (s.setRefused q).sched = s.sched := rfl
@[simp] theorem bdt_setRefused (q : Refusal) : (s.setRefused q).bdt = s.bdt := rfl
@[simp] theorem sieOdd_setRefused (q : Refusal) : (s.setRefused q).sieOdd = s.sieOdd := rfl
@[simp] theorem statQ_setRefused (q : Refusal) : (s.setRefused q).statQ = s.statQ := rfl
@[simp] theorem fwBuf_setRefused (q : Refusal) : (s.setRefused q).fwBuf = s.fwBuf := rfl
@[simp] theorem fwData_setRefused (q : Refusal) : (s.setRefused q).fwData = s.fwData := rfl
@[simp] theorem pending_setRefused (q : Refusal) : (s.setRefused q).pending = s.pending := rfl
@[simp] theorem mem_setRefused (q : Refusal) : (s.setRefused q).mem = s.mem := rfl
@[simp] theorem outLog_setRefused (q : Refusal) : (s.setRefused q).outLog = s.outLog := rfl
@[simp] theorem busTrace_setRefused (q : Refusal) : (s.setRefused q).busTrace = s.busTrace := rfl
@[simp] theorem faults_setRefused (q : Refusal) : (s.setRefused q).faults = s.faults := rfl
@[simp] theorem refused_setRefused (q : Refusal) : (s.setRefused q).refused = match s.refused with | some q' => some q' | none => some q := rfl
@[simp] theorem draws_setRefused (q : Refusal) : (s.setRefused q).draws = s.draws := rfl

/-! ### barrierEffect -/

@[simp] theorem cfg_barrierEffect : s.barrierEffect.cfg = s.cfg := rfl
@[simp] theorem prog_barrierEffect : s.barrierEffect.prog = s.prog := rfl
@[simp] theorem pc_barrierEffect : s.barrierEffect.pc = s.pc := rfl
@[simp] theorem sched_barrierEffect : s.barrierEffect.sched = s.sched := rfl
@[simp] theorem bdt_barrierEffect : s.barrierEffect.bdt = mapTable BdtEntry.afterBarrier s.bdt := rfl
@[simp] theorem sieOdd_barrierEffect : s.barrierEffect.sieOdd = s.sieOdd := rfl
@[simp] theorem statQ_barrierEffect : s.barrierEffect.statQ = s.statQ := rfl
@[simp] theorem fwBuf_barrierEffect : s.barrierEffect.fwBuf = s.fwBuf := rfl
@[simp] theorem fwData_barrierEffect : s.barrierEffect.fwData = s.fwData := rfl
@[simp] theorem pending_barrierEffect : s.barrierEffect.pending = false := rfl
@[simp] theorem mem_barrierEffect : s.barrierEffect.mem = s.mem := rfl
@[simp] theorem outLog_barrierEffect : s.barrierEffect.outLog = s.outLog := rfl
@[simp] theorem busTrace_barrierEffect : s.barrierEffect.busTrace = s.busTrace := rfl
@[simp] theorem faults_barrierEffect : s.barrierEffect.faults = s.faults := rfl
@[simp] theorem refused_barrierEffect : s.barrierEffect.refused = s.refused := rfl
@[simp] theorem draws_barrierEffect : s.barrierEffect.draws = s.draws := rfl

/-! ### What the accessors read -/

@[simp] theorem entry_setParity (c : Channel) (p : Par) (h' : Handle) : (s.setParity c p).entry h' = s.entry h' := rfl
@[simp] theorem entry_setBufToggle (c : Channel) (t : BufferToggle) (h' : Handle) : (s.setBufToggle c t).entry h' = s.entry h' := rfl
@[simp] theorem entry_setDataToggle (c : Channel) (t : DataToggle) (h' : Handle) : (s.setDataToggle c t).entry h' = s.entry h' := rfl
@[simp] theorem entry_advance (h' : Handle) : s.advance.entry h' = s.entry h' := rfl
@[simp] theorem entry_out (v : Value) (h' : Handle) : (s.out v).entry h' = s.entry h' := rfl
@[simp] theorem entry_bus (e : BusEvent) (h' : Handle) : (s.bus e).entry h' = s.entry h' := rfl
@[simp] theorem entry_pushStat (b : Byte) (h' : Handle) : (s.pushStat b).entry h' = s.entry h' := rfl
@[simp] theorem entry_setStatQ (q : List Byte) (h' : Handle) : (s.setStatQ q).entry h' = s.entry h' := rfl
@[simp] theorem entry_setPending (b : Bool) (h' : Handle) : (s.setPending b).entry h' = s.entry h' := rfl
@[simp] theorem entry_setMem (m : Memory) (h' : Handle) : (s.setMem m).entry h' = s.entry h' := rfl
@[simp] theorem entry_useDraws (n : Nat) (h' : Handle) : (s.useDraws n).entry h' = s.entry h' := rfl
@[simp] theorem entry_takeTurn (h' : Handle) : s.takeTurn.entry h' = s.entry h' := rfl
@[simp] theorem entry_addFault (r : FaultRecord) (h' : Handle) : (s.addFault r).entry h' = s.entry h' := rfl
@[simp] theorem entry_setRefused (q : Refusal) (h' : Handle) : (s.setRefused q).entry h' = s.entry h' := rfl
@[simp] theorem parity_setEntry (h : Handle) (e : BdtEntry) (c' : Channel) : (s.setEntry h e).parity c' = s.parity c' := rfl
@[simp] theorem parity_setBufToggle (c : Channel) (t : BufferToggle) (c' : Channel) : (s.setBufToggle c t).parity c' = s.parity c' := rfl
@[simp] theorem parity_setDataToggle (c : Channel) (t : DataToggle) (c' : Channel) : (s.setDataToggle c t).parity c' = s.parity c' := rfl
@[simp] theorem parity_advance (c' : Channel) : s.advance.parity c' = s.parity c' := rfl
@[simp] theorem parity_out (v : Value) (c' : Channel) : (s.out v).parity c' = s.parity c' := rfl
@[simp] theorem parity_bus (e : BusEvent) (c' : Channel) : (s.bus e).parity c' = s.parity c' := rfl
@[simp] theorem parity_pushStat (b : Byte) (c' : Channel) : (s.pushStat b).parity c' = s.parity c' := rfl
@[simp] theorem parity_setStatQ (q : List Byte) (c' : Channel) : (s.setStatQ q).parity c' = s.parity c' := rfl
@[simp] theorem parity_setPending (b : Bool) (c' : Channel) : (s.setPending b).parity c' = s.parity c' := rfl
@[simp] theorem parity_setMem (m : Memory) (c' : Channel) : (s.setMem m).parity c' = s.parity c' := rfl
@[simp] theorem parity_useDraws (n : Nat) (c' : Channel) : (s.useDraws n).parity c' = s.parity c' := rfl
@[simp] theorem parity_takeTurn (c' : Channel) : s.takeTurn.parity c' = s.parity c' := rfl
@[simp] theorem parity_addFault (r : FaultRecord) (c' : Channel) : (s.addFault r).parity c' = s.parity c' := rfl
@[simp] theorem parity_setRefused (q : Refusal) (c' : Channel) : (s.setRefused q).parity c' = s.parity c' := rfl
@[simp] theorem parity_barrierEffect (c' : Channel) : s.barrierEffect.parity c' = s.parity c' := rfl
@[simp] theorem bufToggle_setEntry (h : Handle) (e : BdtEntry) (c' : Channel) : (s.setEntry h e).bufToggle c' = s.bufToggle c' := rfl
@[simp] theorem bufToggle_setParity (c : Channel) (p : Par) (c' : Channel) : (s.setParity c p).bufToggle c' = s.bufToggle c' := rfl
@[simp] theorem bufToggle_setDataToggle (c : Channel) (t : DataToggle) (c' : Channel) : (s.setDataToggle c t).bufToggle c' = s.bufToggle c' := rfl
@[simp] theorem bufToggle_advance (c' : Channel) : s.advance.bufToggle c' = s.bufToggle c' := rfl
@[simp] theorem bufToggle_out (v : Value) (c' : Channel) : (s.out v).bufToggle c' = s.bufToggle c' := rfl
@[simp] theorem bufToggle_bus (e : BusEvent) (c' : Channel) : (s.bus e).bufToggle c' = s.bufToggle c' := rfl
@[simp] theorem bufToggle_pushStat (b : Byte) (c' : Channel) : (s.pushStat b).bufToggle c' = s.bufToggle c' := rfl
@[simp] theorem bufToggle_setStatQ (q : List Byte) (c' : Channel) : (s.setStatQ q).bufToggle c' = s.bufToggle c' := rfl
@[simp] theorem bufToggle_setPending (b : Bool) (c' : Channel) : (s.setPending b).bufToggle c' = s.bufToggle c' := rfl
@[simp] theorem bufToggle_setMem (m : Memory) (c' : Channel) : (s.setMem m).bufToggle c' = s.bufToggle c' := rfl
@[simp] theorem bufToggle_useDraws (n : Nat) (c' : Channel) : (s.useDraws n).bufToggle c' = s.bufToggle c' := rfl
@[simp] theorem bufToggle_takeTurn (c' : Channel) : s.takeTurn.bufToggle c' = s.bufToggle c' := rfl
@[simp] theorem bufToggle_addFault (r : FaultRecord) (c' : Channel) : (s.addFault r).bufToggle c' = s.bufToggle c' := rfl
@[simp] theorem bufToggle_setRefused (q : Refusal) (c' : Channel) : (s.setRefused q).bufToggle c' = s.bufToggle c' := rfl
@[simp] theorem bufToggle_barrierEffect (c' : Channel) : s.barrierEffect.bufToggle c' = s.bufToggle c' := rfl
@[simp] theorem dataToggle_setEntry (h : Handle) (e : BdtEntry) (c' : Channel) : (s.setEntry h e).dataToggle c' = s.dataToggle c' := rfl
@[simp] theorem dataToggle_setParity (c : Channel) (p : Par) (c' : Channel) : (s.setParity c p).dataToggle c' = s.dataToggle c' := rfl
@[simp] theorem dataToggle_setBufToggle (c : Channel) (t : BufferToggle) (c' : Channel) : (s.setBufToggle c t).dataToggle c' = s.dataToggle c' := rfl
@[simp] theorem dataToggle_advance (c' : Channel) : s.advance.dataToggle c' = s.dataToggle c' := rfl
@[simp] theorem dataToggle_out (v : Value) (c' : Channel) : (s.out v).dataToggle c' = s.dataToggle c' := rfl
@[simp] theorem dataToggle_bus (e : BusEvent) (c' : Channel) : (s.bus e).dataToggle c' = s.dataToggle c' := rfl
@[simp] theorem dataToggle_pushStat (b : Byte) (c' : Channel) : (s.pushStat b).dataToggle c' = s.dataToggle c' := rfl
@[simp] theorem dataToggle_setStatQ (q : List Byte) (c' : Channel) : (s.setStatQ q).dataToggle c' = s.dataToggle c' := rfl
@[simp] theorem dataToggle_setPending (b : Bool) (c' : Channel) : (s.setPending b).dataToggle c' = s.dataToggle c' := rfl
@[simp] theorem dataToggle_setMem (m : Memory) (c' : Channel) : (s.setMem m).dataToggle c' = s.dataToggle c' := rfl
@[simp] theorem dataToggle_useDraws (n : Nat) (c' : Channel) : (s.useDraws n).dataToggle c' = s.dataToggle c' := rfl
@[simp] theorem dataToggle_takeTurn (c' : Channel) : s.takeTurn.dataToggle c' = s.dataToggle c' := rfl
@[simp] theorem dataToggle_addFault (r : FaultRecord) (c' : Channel) : (s.addFault r).dataToggle c' = s.dataToggle c' := rfl
@[simp] theorem dataToggle_setRefused (q : Refusal) (c' : Channel) : (s.setRefused q).dataToggle c' = s.dataToggle c' := rfl
@[simp] theorem dataToggle_barrierEffect (c' : Channel) : s.barrierEffect.dataToggle c' = s.dataToggle c' := rfl

@[simp] theorem entry_setEntry_same (h : Handle) (e : BdtEntry) : (s.setEntry h e).entry h = e := by
  simp [State.entry]

@[simp] theorem entry_setEntry_ne {h h' : Handle} (e : BdtEntry) (hne : h ≠ h') :
    (s.setEntry h e).entry h' = s.entry h' := by
  have := fun hc => hne (handleIndex_injective hc)
  simpa [State.entry] using Vector.getElem_set_ne _ _ (fun hc => this (Fin.ext hc))

theorem entry_setEntry (h h' : Handle) (e : BdtEntry) :
    (s.setEntry h e).entry h' = if h = h' then e else s.entry h' := by
  by_cases hh : h = h'
  · subst hh; simp
  · simp [hh]

theorem parity_setParity (c c' : Channel) (p : Par) :
    (s.setParity c p).parity c' = if c = c' then p else s.parity c' := by
  by_cases hc : c = c'
  · subst hc; simp [State.parity]
  · have := fun h => hc (channelIndex_injective h)
    simpa [State.parity, hc] using Vector.getElem_set_ne _ _ (fun h => this (Fin.ext h))

theorem bufToggle_setBufToggle (c c' : Channel) (t : BufferToggle) :
    (s.setBufToggle c t).bufToggle c' = if c = c' then t else s.bufToggle c' := by
  by_cases hc : c = c'
  · subst hc; simp [State.bufToggle]
  · have := fun h => hc (channelIndex_injective h)
    simpa [State.bufToggle, hc] using Vector.getElem_set_ne _ _ (fun h => this (Fin.ext h))

theorem dataToggle_setDataToggle (c c' : Channel) (t : DataToggle) :
    (s.setDataToggle c t).dataToggle c' = if c = c' then t else s.dataToggle c' := by
  by_cases hc : c = c'
  · subst hc; simp [State.dataToggle]
  · have := fun h => hc (channelIndex_injective h)
    simpa [State.dataToggle, hc] using Vector.getElem_set_ne _ _ (fun h => this (Fin.ext h))

@[simp] theorem getElem_mapTable {α β : Type} {n : Nat} (f : α → β) (v : Vector α n) (i : Nat) (hi : i < n) :
    (mapTable f v)[i] = f v[i] := by
  simp [mapTable]

@[simp] theorem entry_barrierEffect (h : Handle) : s.barrierEffect.entry h = (s.entry h).afterBarrier := by
  simp [State.entry]

@[simp] theorem setEntry_setEntry (h : Handle) (e e' : BdtEntry) :
    (s.setEntry h e).setEntry h e' = s.setEntry h e' := by
  simp [State.setEntry]

theorem entry_mapTable (f : BdtEntry → BdtEntry) (h : Handle) :
    ({ s with bdt := mapTable f s.bdt } : State).entry h = f (s.entry h) := by
  simp [State.entry]

theorem handles_eq_of_cfg {s t : State} (h : s.cfg = t.cfg) : s.handles = t.handles := by
  simp [State.handles, h]

theorem mem_handles (h : Handle) : h ∈ s.handles ↔ hasEndpoint s.cfg h.ep = true := by
  simp [State.handles, mem_allHandles]

end Sys2Proof.Machine
end

