-- ==== Sys2Proof/Laws/Ops.lean ====
section
/-! SUPPORT. What the shared operations can do, said once in the words of the claims (Safety.lean): the checks of entry
operations (R143), of memory operations (R252), the write of a control byte (R144), and the SIE's completion (R230). -/

namespace Sys2Proof.Machine

variable {s t : State}

/-! ## The words of the claims -/

theorem hasEndpoint_iff (s : State) (ep : Ep) : hasEndpoint s.cfg ep = true ↔ HasEp s ep := by
  simp [hasEndpoint, HasEp]

theorem isSie_iff (e : BdtEntry) : e.isSie = true ↔ OwnedBySie e := by
  simp [BdtEntry.isSie, OwnedBySie, ctrlIsSie_eq]

theorem isSie_false_iff (e : BdtEntry) : e.isSie = false ↔ OwnedByMcu e := by
  simp [BdtEntry.isSie, OwnedByMcu, ctrlIsSie_eq]

theorem not_sie_iff (e : BdtEntry) : ¬ OwnedBySie e ↔ OwnedByMcu e := by
  simp [OwnedBySie, OwnedByMcu]

theorem rangesMeet_iff (a n b m : Nat) : rangesMeet a n b m = true ↔ Touches a n (fun x => b ≤ x ∧ x < b + m) := by
  simp only [rangesMeet, Touches, Bool.and_eq_true, decide_eq_true_eq]
  constructor
  · rintro ⟨⟨⟨h1, h2⟩, h3⟩, h4⟩
    exact ⟨max a b, by omega, by omega, by omega, by omega⟩
  · rintro ⟨x, h1, h2, h3, h4⟩
    omega

theorem meetsArena_iff (cfg : Config) (a n : Nat) : meetsArena cfg a n = true ↔ Touches a n (ArenaByte cfg) :=
  rangesMeet_iff _ _ _ _

theorem bufferByte_iff (e : BdtEntry) (x : Nat) :
    BufferByte e x ↔ e.addr.toNat ≤ x ∧ x < e.addr.toNat + spanLength e := by
  unfold BufferByte spanLength
  cases e.bcW <;> cases e.addrW <;> simp

theorem spanMeets_iff (e : BdtEntry) (a n : Nat) : spanMeets e a n = true ↔ Touches a n (BufferByte e) := by
  rw [spanMeets, rangesMeet_iff]
  simp only [Touches, bufferByte_iff]
  constructor <;> rintro ⟨x, h1, h2, h3, h4⟩ <;> exact ⟨x, h3, h4, h1, h2⟩

theorem storeHitsSie_iff (s : State) (a n : Nat) : storeHitsSie s a n = true ↔ TouchesSieBuffer s a n := by
  simp only [storeHitsSie, List.any_eq_true, mem_handles, hasEndpoint_iff, Bool.and_eq_true, spanMeets_iff, isSie_iff,
    TouchesSieBuffer]
  constructor <;> rintro ⟨h, h1, h2, h3⟩ <;> exact ⟨h, h1, h3, h2⟩

theorem drawnByte_iff (s : State) (a : Nat) : drawnByte s a = true ↔ SieMayWrite s a := by
  simp only [drawnByte, List.any_eq_true, mem_handles, hasEndpoint_iff, Bool.and_eq_true, isSie_iff, SieMayWrite,
    bufferByte_iff, inRange, beq_iff_eq, decide_eq_true_eq]
  constructor
  · rintro ⟨h, h1, ⟨h2, h3⟩, h4⟩; exact ⟨h, h1, h2, h3, h4⟩
  · rintro ⟨h, h1, h2, h3, h4⟩; exact ⟨h, h1, ⟨h2, h3⟩, h4⟩

theorem unacquiredTest_iff (s : State) (a n : Nat) (h : Handle) :
    (spanMeets (s.entry h) a n && !(s.entry h).isSie && (s.entry h).sync != .acquired) = true ↔
      OwnedByMcu (s.entry h) ∧ (s.entry h).sync ≠ .acquired ∧ Touches a n (BufferByte (s.entry h)) := by
  simp only [Bool.and_eq_true, spanMeets_iff, Bool.not_eq_true', isSie_false_iff, bne_iff_ne]
  tauto

theorem unacquiredAt_some {a n : Nat} {h : Handle} (hh : unacquiredAt s a n = some h) : UnacquiredBuffer s a n h := by
  have h1 := List.find?_some hh
  have h2 := List.mem_of_find?_eq_some hh
  rw [unacquiredTest_iff] at h1
  rw [mem_handles, hasEndpoint_iff] at h2
  exact ⟨h2, h1⟩

theorem unacquiredAt_none {a n : Nat} (hh : unacquiredAt s a n = none) : ¬ ∃ h, UnacquiredBuffer s a n h := by
  rintro ⟨h, h1, h2⟩
  have := List.find?_eq_none.1 hh h (by rwa [mem_handles, hasEndpoint_iff])
  exact this ((unacquiredTest_iff ..).2 h2)

/-! ## The STAT word -/

theorem statWord_eq (h : Handle) : statWord h = BitVec.ofNat 8 (statNumber h) := by
  obtain ⟨ep, d, p⟩ := h
  apply BitVec.eq_of_toNat_eq
  simp only [statWord, statByte, append_toNat, ofBool_toNat, statNumber, BitVec.toNat_ofNat]
  cases d <;> cases p <;> simp [bitNat, Dir.bit, Par.bit] <;> omega

theorem statHandle_statWord (h : Handle) : statHandle (statWord h) = h := by
  obtain ⟨ep, d, p⟩ := h
  have h1 : (statFields (statWord ⟨ep, d, p⟩)).endp = ep := by
    apply BitVec.eq_of_toNat_eq
    simp only [statFields, statWord, statByte, extract_toNat, append_toNat]; omega
  have h2 : (statFields (statWord ⟨ep, d, p⟩)).tx = bit1 d.bit := by
    apply BitVec.eq_of_toNat_eq
    simp only [statFields, statWord, statByte, extract_toNat, append_toNat]; omega
  have h3 : (statFields (statWord ⟨ep, d, p⟩)).odd = bit1 p.bit := by
    apply BitVec.eq_of_toNat_eq
    simp only [statFields, statWord, statByte, extract_toNat, append_toNat]; omega
  rw [statHandle, h1, h2, h3]
  cases d <;> cases p <;> rfl

/-! ## The entry after a barrier and after a read of its control byte -/

@[simp] theorem ctrl_afterBarrier (e : BdtEntry) : e.afterBarrier.ctrl = e.ctrl := by
  simp only [BdtEntry.afterBarrier]; split <;> rfl

@[simp] theorem rsvd_afterBarrier (e : BdtEntry) : e.afterBarrier.rsvd = e.rsvd := by
  simp only [BdtEntry.afterBarrier]; split <;> rfl

@[simp] theorem bc_afterBarrier (e : BdtEntry) : e.afterBarrier.bc = e.bc := by
  simp only [BdtEntry.afterBarrier]; split <;> rfl

@[simp] theorem addr_afterBarrier (e : BdtEntry) : e.afterBarrier.addr = e.addr := by
  simp only [BdtEntry.afterBarrier]; split <;> rfl

@[simp] theorem ctrlW_afterBarrier (e : BdtEntry) : e.afterBarrier.ctrlW = e.ctrlW := by
  simp only [BdtEntry.afterBarrier]; split <;> rfl

@[simp] theorem bcW_afterBarrier (e : BdtEntry) : e.afterBarrier.bcW = e.bcW := by
  simp only [BdtEntry.afterBarrier]; split <;> rfl

@[simp] theorem addrW_afterBarrier (e : BdtEntry) : e.afterBarrier.addrW = e.addrW := by
  simp only [BdtEntry.afterBarrier]; split <;> rfl

theorem sync_afterBarrier (e : BdtEntry) :
    e.afterBarrier.sync = if e.sync = .observed then .acquired else e.sync := by
  simp only [BdtEntry.afterBarrier]; split <;> rfl

@[simp] theorem ctrl_afterReadCtrl (e : BdtEntry) : e.afterReadCtrl.ctrl = e.ctrl := by
  simp only [BdtEntry.afterReadCtrl]; split <;> rfl

@[simp] theorem rsvd_afterReadCtrl (e : BdtEntry) : e.afterReadCtrl.rsvd = e.rsvd := by
  simp only [BdtEntry.afterReadCtrl]; split <;> rfl

@[simp] theorem bc_afterReadCtrl (e : BdtEntry) : e.afterReadCtrl.bc = e.bc := by
  simp only [BdtEntry.afterReadCtrl]; split <;> rfl

@[simp] theorem addr_afterReadCtrl (e : BdtEntry) : e.afterReadCtrl.addr = e.addr := by
  simp only [BdtEntry.afterReadCtrl]; split <;> rfl

@[simp] theorem ctrlW_afterReadCtrl (e : BdtEntry) : e.afterReadCtrl.ctrlW = e.ctrlW := by
  simp only [BdtEntry.afterReadCtrl]; split <;> rfl

@[simp] theorem bcW_afterReadCtrl (e : BdtEntry) : e.afterReadCtrl.bcW = e.bcW := by
  simp only [BdtEntry.afterReadCtrl]; split <;> rfl

@[simp] theorem addrW_afterReadCtrl (e : BdtEntry) : e.afterReadCtrl.addrW = e.addrW := by
  simp only [BdtEntry.afterReadCtrl]; split <;> rfl

theorem afterReadCtrl_handback {e : BdtEntry} (h : OwnedByMcu e ∧ e.sync = .completed) :
    e.afterReadCtrl = { e with sync := .observed } := by
  simp [BdtEntry.afterReadCtrl, (isSie_false_iff e).2 h.1, h.2]

theorem afterReadCtrl_other {e : BdtEntry} (h : ¬ (OwnedByMcu e ∧ e.sync = .completed)) : e.afterReadCtrl = e := by
  rw [← isSie_false_iff] at h
  simp only [BdtEntry.afterReadCtrl, Bool.and_eq_true, Bool.not_eq_true', beq_iff_eq]
  rw [if_neg h]

theorem afterReadCtrl_of_sie {e : BdtEntry} (h : OwnedBySie e) : e.afterReadCtrl = e := by
  simp [BdtEntry.afterReadCtrl, (isSie_iff e).2 h]

/-! ## Entry operations (R143) -/

theorem withEntry_badHandle {h : Handle} (kind : AccessKind) (k : Bool → Result) (he : ¬ HasEp s h.ep) :
    withEntry h kind s k = .next (s.addFault ⟨.badHandle, .endpoint h.ep, some s.pc⟩) := by
  rw [← hasEndpoint_iff] at he
  simp [withEntry, fwEntryCheck, he, raise, entryFault]

theorem withEntry_write_sie {h : Handle} (k : Bool → Result) (he : HasEp s h.ep) (ho : OwnedBySie (s.entry h)) :
    withEntry h .write s k = .next (s.addFault ⟨.ownViolation, .handle h, some s.pc⟩) := by
  rw [← hasEndpoint_iff] at he
  rw [← isSie_iff] at ho
  simp [withEntry, fwEntryCheck, he, ho, raise, entryFault]

theorem withEntry_read_sie {h : Handle} (k : Bool → Result) (he : HasEp s h.ep) (ho : OwnedBySie (s.entry h)) :
    withEntry h .readField s k = k true := by
  rw [← hasEndpoint_iff] at he
  rw [← isSie_iff] at ho
  simp [withEntry, fwEntryCheck, he, ho]

theorem withEntry_unacquired {h : Handle} (kind : AccessKind) (k : Bool → Result) (he : HasEp s h.ep)
    (ho : OwnedByMcu (s.entry h)) (ha : (s.entry h).sync ≠ .acquired) :
    withEntry h kind s k = .next (s.addFault ⟨.unorderedAcquire, .handle h, some s.pc⟩) := by
  rw [← hasEndpoint_iff] at he
  rw [← isSie_false_iff] at ho
  simp [withEntry, fwEntryCheck, he, ho, ha, raise, entryFault]

theorem withEntry_ok {h : Handle} (kind : AccessKind) (k : Bool → Result) (hm : MayAccess s h) :
    withEntry h kind s k = k false := by
  have he := (hasEndpoint_iff ..).2 hm.exists_
  have ho := (isSie_false_iff _).2 hm.mcuOwned
  simp [withEntry, fwEntryCheck, he, ho, hm.isAcquired]

/-- Everything an operation behind the entry check can do. -/
theorem withEntry_cases (h : Handle) (kind : AccessKind) (s : State) (k : Bool → Result) :
    (∃ f d, withEntry h kind s k = .next (s.addFault ⟨f, d, some s.pc⟩) ∧ f ≠ .unorderedRelease) ∨
    (MayAccess s h ∧ withEntry h kind s k = k false) ∨
    (kind = .readField ∧ HasEp s h.ep ∧ OwnedBySie (s.entry h) ∧ withEntry h kind s k = k true) := by
  by_cases he : HasEp s h.ep
  · by_cases ho : OwnedBySie (s.entry h)
    · cases kind with
      | write => exact .inl ⟨_, _, withEntry_write_sie k he ho, by simp⟩
      | readField => exact .inr (.inr ⟨rfl, he, ho, withEntry_read_sie k he ho⟩)
    · by_cases ha : (s.entry h).sync = .acquired
      · have hm : MayAccess s h := ⟨he, (not_sie_iff _).1 ho, ha⟩
        exact .inr (.inl ⟨hm, withEntry_ok kind k hm⟩)
      · exact .inl ⟨_, _, withEntry_unacquired kind k he ((not_sie_iff _).1 ho) ha, by simp⟩
  · exact .inl ⟨_, _, withEntry_badHandle kind k he, by simp⟩

theorem withChannel_bad {c : Channel} (k : Result) (he : ¬ HasEp s c.ep) :
    withChannel c s k = .next (s.addFault ⟨.badHandle, .endpoint c.ep, some s.pc⟩) := by
  rw [← hasEndpoint_iff] at he
  simp [withChannel, he, raise]

theorem withChannel_ok {c : Channel} (k : Result) (he : HasEp s c.ep) : withChannel c s k = k := by
  rw [← hasEndpoint_iff] at he
  simp [withChannel, he]

theorem withChannel_cases (c : Channel) (s : State) (k : Result) :
    (∃ r, withChannel c s k = .next (s.addFault r)) ∨ (HasEp s c.ep ∧ withChannel c s k = k) := by
  by_cases he : HasEp s c.ep
  · exact .inr ⟨he, withChannel_ok k he⟩
  · exact .inl ⟨_, withChannel_bad k he⟩

/-! ## The write of a control byte (R144) -/

theorem fwWriteCtrl_plain (h : Handle) {v : Byte} (s : State) (hv : v[7] = false) :
    fwWriteCtrl h v s = .ok ((s.setEntry h { s.entry h with ctrl := v, ctrlW := true }).setPending true) := by
  simp [fwWriteCtrl, ctrlIsSie_eq, hv]

theorem fwWriteCtrl_release (h : Handle) {v : Byte} {s : State} (hv : v[7] = true) (hp : s.pending = false) :
    fwWriteCtrl h v s = .ok (s.setEntry h { s.entry h with ctrl := v, ctrlW := true }) := by
  simp [fwWriteCtrl, ctrlIsSie_eq, hv, hp]

theorem fwWriteCtrl_pending (h : Handle) {v : Byte} {s : State} (hv : v[7] = true) (hp : s.pending = true) :
    fwWriteCtrl h v s = .error .unorderedRelease := by
  simp [fwWriteCtrl, ctrlIsSie_eq, hv, hp]

/-- Everything the write of a control byte can do. -/
theorem fwWriteCtrl_cases (h : Handle) (v : Byte) (s : State) :
    (v[7] = true ∧ s.pending = true ∧ fwWriteCtrl h v s = .error .unorderedRelease) ∨
    ∃ p, fwWriteCtrl h v s = .ok ((s.setEntry h { s.entry h with ctrl := v, ctrlW := true }).setPending p) ∧
      (s.pending = true → p = true) := by
  cases hv : v[7]
  · exact .inr ⟨true, fwWriteCtrl_plain h s hv, fun _ => rfl⟩
  · cases hp : s.pending
    · refine .inr ⟨false, ?_, by simp⟩
      rw [fwWriteCtrl_release h hv hp]
      have : s.pending = (s.setEntry h { s.entry h with ctrl := v, ctrlW := true }).pending := rfl
      simp [State.setPending, ← hp, State.setEntry]
    · exact .inl ⟨rfl, rfl, fwWriteCtrl_pending h hv hp⟩

/-! ## Memory operations (R252) -/

theorem withMem_ok {addr : Word} {n : Nat} {kind : MemKind} (k : Result)
    (h1 : kind = .fetch ∨ addr.toNat % n = 0) (h2 : addr.toNat + n ≤ 2 ^ 32)
    (h3 : ¬ Touches addr.toNat n (ArenaByte s.cfg))
    (h4 : kind ≠ .store ∨ ¬ TouchesSieBuffer s addr.toNat n) (h5 : ¬ ∃ h, UnacquiredBuffer s addr.toNat n h) :
    withMem addr n kind s k = k := by
  have hu : unacquiredAt s addr.toNat n = none := by
    cases hx : unacquiredAt s addr.toNat n with
    | none => rfl
    | some h => exact absurd ⟨h, unacquiredAt_some hx⟩ h5
  rw [← meetsArena_iff, Bool.not_eq_true] at h3
  rw [← storeHitsSie_iff] at h4
  have g1 : ¬ (kind ≠ .fetch ∧ 1 < n ∧ addr.toNat % n ≠ 0) := by tauto
  have g4 : ¬ (kind = .store ∧ storeHitsSie s addr.toNat n = true) := by tauto
  simp only [withMem, fwMemCheck, if_neg g1, if_neg (Nat.not_lt.2 h2), h3, if_neg g4, hu, Bool.false_eq_true, if_false]

/-- Everything a memory operation can do: record a fault, be refused, or pass every check. -/
theorem withMem_cases (addr : Word) (n : Nat) (kind : MemKind) (s : State) (k : Result) :
    (∃ r, withMem addr n kind s k = .next (s.addFault r)) ∨
    (∃ q, (q = .addrWrap ∨ q = .arenaAccess) ∧ withMem addr n kind s k = .next (s.setRefused q)) ∨
    (addr.toNat + n ≤ 2 ^ 32 ∧ withMem addr n kind s k = k) := by
  simp only [withMem, fwMemCheck]
  split
  · rename_i r h
    exact .inl ⟨r, rfl⟩
  · rename_i q h
    refine .inr (.inl ⟨q, ?_, rfl⟩)
    revert h
    split
    · simp
    split
    · simp only [MemCheck.refused.injEq]; rintro rfl; exact .inl rfl
    split
    · simp only [MemCheck.refused.injEq]; rintro rfl; exact .inr rfl
    split
    · simp
    split <;> simp
  · rename_i h
    refine .inr (.inr ⟨?_, rfl⟩)
    by_contra hc
    revert h
    split
    · simp
    · rw [if_pos (Nat.lt_of_not_le hc)]
      simp

/-! ## The SIE's completion (R230) -/

theorem entry_complete (s : State) (h h' : Handle) (tp : BitVec 4) (n : Half) :
    (s.complete h tp n).entry h' =
      if h = h' then { s.entry h with ctrl := completedCtrl (s.entry h).ctrl tp, bc := n, bcW := true, sync := .completed }
      else s.entry h' := by
  simp [State.complete, entry_setEntry]

theorem parity_complete (s : State) (h : Handle) (c : Channel) (tp : BitVec 4) (n : Half) :
    (s.complete h tp n).parity c = if handleChannel h = c then otherPar (s.parity c) else s.parity c := by
  simp only [State.complete, parity_pushStat, parity_setParity, parity_setEntry]
  split
  · subst_vars; rfl
  · rfl

end Sys2Proof.Machine
end

