-- ==== Sys2Proof/Laws/Sie.lean ====
section
/-! SUPPORT. The SIE's transaction in the words of the claims (Safety.lean): which entry a token selects, when the checks
of R216 pass, and everything a transaction can do. -/

namespace Sys2Proof.Machine

variable {s t : State}

theorem exec_sieInstr (tok : Tok) (ep : Ep) (pid : DataPid) (payload : List Byte) (ack lax : Bool) (s : State) :
    exec (sieInstr tok ep pid payload ack lax) s =
      match tok with
      | .setup => sieTransaction .setup ep pid payload false lax s
      | .out => sieTransaction .out ep pid payload false false s
      | .inn => sieTransaction .inn ep .data0 [] ack false s := by
  cases tok <;> rfl

theorem answers_iff (s : State) (tok : Tok) (ep : Ep) : sieAnswers tok ep s = true ↔ Answered s tok ep := by
  cases tok <;> simp [sieAnswers, epEnabled, Answered, hasEndpoint_iff, tokDir]

theorem selects_iff (s : State) (tok : Tok) (ep : Ep) (h : Handle) : Selects s tok ep h ↔ h = sieHandle tok ep s := by
  obtain ⟨e, d, p⟩ := h
  cases tok <;> simp only [Selects, sieHandle, tokDir, Handle.mk.injEq] <;> constructor <;>
    · rintro ⟨rfl, rfl, h⟩
      exact ⟨rfl, rfl, h⟩

theorem isSet_ctrl (v : Byte) : isSet (ctrlData01 v) = v[6] ∧ isSet (ctrlKeep v) = v[5] ∧ isSet (ctrlNinc v) = v[4] ∧
    isSet (ctrlDts v) = v[3] ∧ isSet (ctrlStall v) = v[2] := by
  simp [ctrlData01, ctrlKeep, ctrlNinc, ctrlDts, ctrlStall, isSet_extract]

theorem ctrlRsvd_iff (v : Byte) : ctrlRsvd v = 0#2 ↔ v.toNat % 4 = 0 := by
  rw [← BitVec.toNat_inj, ctrlRsvd, extract_toNat]
  simp

theorem rangeOK_iff (s : State) (e : BdtEntry) : rangeOK s.cfg e.addr.toNat e.bc.toNat = true ↔ RangeFits s e := by
  simp only [rangeOK, RangeFits, Bool.or_eq_true, beq_iff_eq, Bool.and_eq_true, decide_eq_true_eq, Bool.not_eq_true',
    ← Bool.not_eq_true, meetsArena_iff]

theorem ignores_iff (tok : Tok) (lax : Bool) : ignoresStallAndToggle tok lax = true ↔ Lax tok lax := by
  simp [ignoresStallAndToggle, Lax]

/-- Data-toggle synchronisation discards the packet exactly on a mismatch that the host does not let through (R226,
R237). -/
theorem dtsMismatch_iff (tok : Tok) (pid : DataPid) (lax : Bool) (e : BdtEntry) :
    dtsMismatch tok pid lax e = true ↔ ToggleMismatch e pid ∧ ¬ Lax tok lax := by
  simp only [dtsMismatch, ToggleMismatch, isSet_ctrl, ← ignores_iff, Bool.and_eq_true, Bool.not_eq_true',
    Bool.not_eq_true]
  cases pid <;> cases e.ctrl[6] <;> simp [DataPid.toggle, DataPid.pid]

/-- The stored entry is past its own checks: what `Cleared` says of the entry alone. -/
theorem sieGuard_ok {h : Handle} (k : Result) (h5 : (s.entry h).ctrl[5] = false) (h4 : (s.entry h).ctrl[4] = false)
    (hr : (s.entry h).ctrl.toNat % 4 = 0) (hb : (s.entry h).bcW = true) (ha : (s.entry h).addrW = true)
    (hf : RangeFits s (s.entry h)) : sieGuard h s k = k := by
  rw [← ctrlRsvd_iff] at hr
  rw [← rangeOK_iff] at hf
  simp [sieGuard, isSet_ctrl, h5, h4, hr, hb, ha, hf]

/-- Everything the guards can do. -/
theorem sieGuard_cases (h : Handle) (s : State) (k : Result) :
    (∃ q, q ∈ refusalCodes ∧ sieGuard h s k = .next (s.setRefused q)) ∨
    sieGuard h s k = .next (s.addFault (sieFault h)) ∨
    ((s.entry h).bcW = true ∧ (s.entry h).addrW = true ∧ RangeFits s (s.entry h) ∧ sieGuard h s k = k) := by
  simp only [sieGuard]
  split
  · exact .inl ⟨.keepNinc, by simp [refusalCodes], rfl⟩
  split
  · exact .inl ⟨.reservedCtrl, by simp [refusalCodes], rfl⟩
  split
  · exact .inr (.inl rfl)
  split
  · exact .inl ⟨.bufferRange, by simp [refusalCodes], rfl⟩
  rename_i hw hr
  simp only [Bool.or_eq_true, Bool.not_eq_true', not_or, Bool.not_eq_false] at hw
  simp only [Bool.not_eq_true', Bool.not_eq_false] at hr
  exact .inr (.inr ⟨hw.1, hw.2, (rangeOK_iff s (s.entry h)).1 hr, rfl⟩)

/-- A transaction on a SIE-owned entry that is not stalled is decided by the guards and the data stage. -/
theorem sieTransaction_engaged {tok : Tok} {ep : Ep} {h : Handle} (pid : DataPid) (payload : List Byte) (ack lax : Bool)
    (he : Engaged s tok ep h) (hn : (s.entry h).ctrl[2] = false ∨ Lax tok lax) :
    sieTransaction tok ep pid payload ack lax s =
      sieGuard h s (sieData tok pid payload ack lax h s) := by
  have ha := (answers_iff ..).2 he.answered
  have hh := (selects_iff ..).1 he.selected
  have ho := (isSie_iff _).2 he.sieOwned
  rw [← ignores_iff] at hn
  subst hh
  simp only [sieTransaction, ha, he.room, ho, isSet_ctrl]
  rcases hn with hn | hn <;> simp [hn]

theorem sieTransaction_cleared {tok : Tok} {ep : Ep} {h : Handle} (pid : DataPid) (payload : List Byte) (ack lax : Bool)
    (hc : Cleared s tok ep lax h) :
    sieTransaction tok ep pid payload ack lax s =
      sieData tok pid payload ack lax h s := by
  rw [sieTransaction_engaged pid payload ack lax hc.engaged hc.notStalled,
    sieGuard_ok _ hc.noKeep hc.noNinc hc.rsvdZero hc.bcWritten hc.addrWritten hc.rangeFits]

/-- What completes: the selected entry is SIE-owned with every field written, the queue has room, and the bytes written
to memory fit the entry's buffer. -/
structure Completes (s : State) (tok : Tok) (ep : Ep) (payload : List Byte) (n : Half) : Prop where
  answered   : Answered s tok ep
  room       : s.statQ.length ≠ s.cfg.statDepth
  sieOwned   : OwnedBySie (s.entry (sieHandle tok ep s))
  bcWritten  : (s.entry (sieHandle tok ep s)).bcW = true
  addrWritten : (s.entry (sieHandle tok ep s)).addrW = true
  inSpace    : payload = [] ∨ (s.entry (sieHandle tok ep s)).addr.toNat + payload.length ≤ 2 ^ 32
  received   : tok ≠ .inn → n = BitVec.ofNat 16 payload.length ∧
    payload.length ≤ (s.entry (sieHandle tok ep s)).bc.toNat
  sent       : tok = .inn → n = (s.entry (sieHandle tok ep s)).bc ∧ payload = []

/-- The entry handed back by a completion (R230). -/
def handedBack (e : BdtEntry) (tok : Tok) (n : Half) : BdtEntry :=
  { e with ctrl := completedCtrl e.ctrl tok.pid, bc := n, bcW := true, sync := .completed }

/-- The state after a completed transaction, as updates of the state before it. -/
def completedState (s : State) (tok : Tok) (ep : Ep) (payload : List Byte) (n : Half) (ev : BusEvent) (k : Nat) :
    State :=
  let h := sieHandle tok ep s
  let m := s.mem.writeBytes (s.entry h).addr.toNat payload
  (((((s.setMem m).bus ev).useDraws k).setEntry h (handedBack (s.entry h) tok n)).setParity (handleChannel h)
    (otherPar (s.parity (handleChannel h)))).pushStat (statWord h)

/-- Everything a transaction can do: an answer that changes only the bus trace (and, where bytes were sent, the draw
counter), a fault, a refusal, or a completion. -/
theorem sieTransaction_cases (tok : Tok) (ep : Ep) (pid : DataPid) (payload : List Byte) (ack lax : Bool) (s : State) :
    (∃ ev k, sieTransaction tok ep pid payload ack lax s = .next ((s.bus ev).useDraws k)) ∨
    (∃ h, sieTransaction tok ep pid payload ack lax s = .next (s.addFault (sieFault h))) ∨
    (∃ q, q ∈ refusalCodes ∧ sieTransaction tok ep pid payload ack lax s = .next (s.setRefused q)) ∨
    (∃ bytes n ev k, Completes s tok ep bytes n ∧
      sieTransaction tok ep pid payload ack lax s = .next (completedState s tok ep bytes n ev k)) := by
  by_cases ha : sieAnswers tok ep s = true
  swap
  · exact .inl ⟨.answer tok ep .noResponse, 0, by simp only [sieTransaction, ha]; rfl⟩
  by_cases hr : s.statQ.length = s.cfg.statDepth
  · exact .inl ⟨.answer tok ep .nak, 0, by simp only [sieTransaction, ha, hr]; rfl⟩
  by_cases ho : (s.entry (sieHandle tok ep s)).isSie = true
  swap
  · exact .inl ⟨.answer tok ep .nak, 0, by simp only [sieTransaction, ha, hr, ho]; rfl⟩
  by_cases hst : (isSet (ctrlStall (s.entry (sieHandle tok ep s)).ctrl) && !ignoresStallAndToggle tok lax) = true
  · exact .inl ⟨.answer tok ep .stall, 0, by simp only [sieTransaction, ha, hr, ho, hst]; rfl⟩
  have hg : sieTransaction tok ep pid payload ack lax s = sieGuard (sieHandle tok ep s) s
      (sieData tok pid payload ack lax (sieHandle tok ep s) s) := by
    simp only [sieTransaction, ha, hr, ho, hst, Bool.not_true, Bool.false_eq_true, if_false]
  rw [hg]
  rcases sieGuard_cases (sieHandle tok ep s) s (sieData tok pid payload ack lax (sieHandle tok ep s) s) with ⟨q, hq, h⟩ | h | ⟨hb, haw, hf, h⟩
  · exact .inr (.inr (.inl ⟨q, hq, h⟩))
  · exact .inr (.inl ⟨_, h⟩)
  rw [h]
  have hs := (isSie_iff _).1 ho
  have hans := (answers_iff ..).1 ha
  have receive (htok : tok ≠ .inn) :
    (∃ ev k, sieReceive tok pid payload lax (sieHandle tok ep s) s = .next ((s.bus ev).useDraws k)) ∨
    (∃ h, sieReceive tok pid payload lax (sieHandle tok ep s) s = .next (s.addFault (sieFault h))) ∨
    (∃ q, q ∈ refusalCodes ∧ sieReceive tok pid payload lax (sieHandle tok ep s) s = .next (s.setRefused q)) ∨
    (∃ bytes n ev k, Completes s tok ep bytes n ∧
      sieReceive tok pid payload lax (sieHandle tok ep s) s = .next (completedState s tok ep bytes n ev k)) := by
    simp only [sieReceive]
    split
    · exact .inr (.inr (.inl ⟨.overflow, by simp [refusalCodes], rfl⟩))
    split
    · exact .inl ⟨_, 0, rfl⟩
    rename_i hl _
    have hl := Nat.le_of_not_lt hl
    refine .inr (.inr (.inr ⟨payload, _, _, 0, ⟨hans, hr, hs, hb, haw, ?_, fun _ => ⟨rfl, hl⟩, fun h => absurd h htok⟩, rfl⟩))
    rcases hf with hf | hf
    · exact .inl (List.length_eq_zero_iff.1 (by omega))
    · exact .inr (by omega)
  cases tok with
  | setup => exact receive (by simp)
  | out => exact receive (by simp)
  | inn =>
    simp only [sieData, tokDir, sieTransmit]
    split
    · exact .inr (.inr (.inl ⟨.bcLimit, by simp [refusalCodes], rfl⟩))
    cases ack with
    | false => exact .inl ⟨_, _, rfl⟩
    | true =>
      exact .inr (.inr (.inr ⟨[], _, _, _, ⟨hans, hr, hs, hb, haw, .inl rfl, by simp, fun _ => ⟨rfl, rfl⟩⟩, rfl⟩))

end Sys2Proof.Machine
end

