-- ==== Sys2Proof/Laws/Exec.lean ====
section
/-! SUPPORT. Said once: everything an operation can do. `Effect i s t` lists the next states of operation `i`;
`exec_effect` says that there are no others and `exec_next` that every operation answers one, so that a rule about the
whole machine is a case analysis over `Effect`. -/

namespace Sys2Proof.Machine

/-- The operations of FW that return a value and change nothing else. -/
def returnsOnly : Instr → Bool
  | .bdtReadBc _ | .bdtReadAddr _ | .readToggles _ _ | .statPop | .statDecode _ | .statEncode _ _ _
  | .statToHandle _ | .reqRecipient _ | .reqType _ | .reqDirection _ | .requestType _ _ _ | .setupDecode _
  | .setupEncode _ | .ctrlSetupView _ | .ctrlResultView _ | .ctrlPack _ | .notBuf _ | .notData _ | .memLoad1 _
  | .memLoad2 _ | .memLoad4 _ | .setupFetch _ => true
  | .bdtInit _ _ _ _ | .bdtSetBc _ _ | .bdtSetAddr _ _ | .bdtSetCtrl _ _ | .bdtReadCtrl _ | .flipBuf _ _
  | .flipData _ _ | .clearToggles _ _ | .oddReset | .barrier | .memStore1 _ _ | .memStore2 _ _ | .memStore4 _ _
  | .sieSetup _ _ _ _ | .sieOut _ _ _ | .sieIn _ _ => false

/-- The address and the bytes of a store. -/
def storeOf : Instr → Option (Word × List Byte)
  | .memStore1 v a => some (a, leBytes 1 (v.setWidth 32))
  | .memStore2 v a => some (a, leBytes 2 (v.setWidth 32))
  | .memStore4 v a => some (a, leBytes 4 v)
  | .bdtInit _ _ _ _ | .bdtSetBc _ _ | .bdtSetAddr _ _ | .bdtSetCtrl _ _ | .bdtReadCtrl _ | .bdtReadBc _
  | .bdtReadAddr _ | .flipBuf _ _ | .flipData _ _ | .clearToggles _ _ | .readToggles _ _ | .oddReset | .statPop
  | .statDecode _ | .statEncode _ _ _ | .statToHandle _ | .reqRecipient _ | .reqType _ | .reqDirection _
  | .requestType _ _ _ | .setupDecode _ | .setupEncode _ | .ctrlSetupView _ | .ctrlResultView _ | .ctrlPack _
  | .notBuf _ | .notData _ | .barrier | .memLoad1 _ | .memLoad2 _ | .memLoad4 _ | .setupFetch _
  | .sieSetup _ _ _ _ | .sieOut _ _ _ | .sieIn _ _ => none

@[simp] theorem returnsOnly_sieInstr (tok : Tok) (ep : Ep) (pid : DataPid) (payload : List Byte) (ack lax : Bool) :
    returnsOnly (sieInstr tok ep pid payload ack lax) = false := by
  cases tok <;> rfl

@[simp] theorem storeOf_sieInstr (tok : Tok) (ep : Ep) (pid : DataPid) (payload : List Byte) (ack lax : Bool) :
    storeOf (sieInstr tok ep pid payload ack lax) = none := by
  cases tok <;> rfl

theorem storeOf_cases {i : Instr} {a : Word} {bytes : List Byte} (h : storeOf i = some (a, bytes)) :
    (∃ v, i = .memStore1 v a) ∨ (∃ v, i = .memStore2 v a) ∨ (∃ v, i = .memStore4 v a) := by
  cases i <;> simp_all [storeOf]

/-- The next states of each operation. -/
inductive Effect (s : State) : Instr → State → Prop
  | faulted (i : Instr) (r : FaultRecord) : Effect s i (s.addFault r)
  | turnedAway (i : Instr) (q : Refusal) (hq : q ∈ refusalCodes) : Effect s i (s.setRefused q)
  | returned (i : Instr) (hi : returnsOnly i = true) (v : Value) (k : Nat) :
      Effect s i ((s.out v).useDraws k).advance
  | popped (b : Byte) (rest : List Byte) (hq : s.statQ = b :: rest) :
      Effect s .statPop ((s.out (.u8 b)).setStatQ rest).advance
  | readCtrl (h : Handle) (he : HasEp s h.ep) (v : Value) (k : Nat) :
      Effect s (.bdtReadCtrl h) (((s.setEntry h (s.entry h).afterReadCtrl).out v).useDraws k).advance
  | wroteBc (h : Handle) (bc : Half) (hm : MayAccess s h) :
      Effect s (.bdtSetBc h bc) ((s.setEntry h { s.entry h with bc := bc, bcW := true }).setPending true).advance
  | wroteAddr (h : Handle) (addr : Word) (hm : MayAccess s h) :
      Effect s (.bdtSetAddr h addr)
        ((s.setEntry h { s.entry h with addr := addr, addrW := true }).setPending true).advance
  | wroteCtrl (h : Handle) (ctrl : Byte) (p : Bool) (hm : MayAccess s h) (hp : s.pending = true → p = true) :
      Effect s (.bdtSetCtrl h ctrl)
        ((s.setEntry h { s.entry h with ctrl := ctrl, ctrlW := true }).setPending p).advance
  | initialised (h : Handle) (ctrl : Byte) (bc : Half) (addr : Word) (p : Bool) (hm : MayAccess s h) :
      Effect s (.bdtInit h ctrl bc addr)
        ((s.barrierEffect.setEntry h { s.entry h with
          ctrl := ctrl, ctrlW := true, bc := bc, bcW := true, addr := addr, addrW := true }).setPending p).advance
  | flippedBuf (ep : Ep) (dir : Dir) (he : HasEp s ep) :
      Effect s (.flipBuf ep dir) (s.setBufToggle ⟨ep, dir⟩ (notBuf (s.bufToggle ⟨ep, dir⟩))).advance
  | flippedData (ep : Ep) (dir : Dir) (he : HasEp s ep) :
      Effect s (.flipData ep dir) (s.setDataToggle ⟨ep, dir⟩ (notData (s.dataToggle ⟨ep, dir⟩))).advance
  | cleared (ep : Ep) (dir : Dir) (he : HasEp s ep) :
      Effect s (.clearToggles ep dir) ((s.setDataToggle ⟨ep, dir⟩ .data0).setBufToggle ⟨ep, dir⟩ .even).advance
  | aligned : Effect s .oddReset { s with sieOdd := Vector.replicate 32 .even, pc := s.pc + 1 }
  | barrier : Effect s .barrier s.barrierEffect.advance
  | stored (i : Instr) (a : Word) (bytes : List Byte) (hi : storeOf i = some (a, bytes))
      (hf : a.toNat + bytes.length ≤ 2 ^ 32) :
      Effect s i ((s.setMem (s.mem.writeBytes a.toNat bytes)).setPending true).advance
  | answered (tok : Tok) (ep : Ep) (pid : DataPid) (payload : List Byte) (ack lax : Bool) (ev : BusEvent) (k : Nat) :
      Effect s (sieInstr tok ep pid payload ack lax) ((s.bus ev).useDraws k)
  | completed (tok : Tok) (ep : Ep) (pid : DataPid) (payload : List Byte) (ack lax : Bool) (bytes : List Byte)
      (n : Half) (ev : BusEvent) (k : Nat) (hc : Completes s tok ep bytes n) :
      Effect s (sieInstr tok ep pid payload ack lax) (completedState s tok ep bytes n ev k)

/-- The operation answers a next state, one of `Effect`. -/
def Answers (s : State) (i : Instr) : Prop := ∃ t, exec i s = .next t ∧ Effect s i t

theorem answers_returns {s : State} {i : Instr} (hi : returnsOnly i = true) (v : Value)
    (he : exec i s = .next (s.out v).advance) : Answers s i :=
  ⟨_, he, .returned i hi v 0⟩

theorem answers_withEntry {s : State} {i : Instr} {h : Handle} {kind : AccessKind} {k : Bool → Result}
    (hk : ∀ b, (kind = .write → b = false ∧ MayAccess s h) → ∃ t, k b = .next t ∧ Effect s i t) :
    ∃ t, withEntry h kind s k = .next t ∧ Effect s i t := by
  rcases withEntry_cases h kind s k with ⟨f, d, hw, -⟩ | ⟨hm, hw⟩ | ⟨rfl, -, -, hw⟩
  · exact ⟨_, hw, .faulted i _⟩
  · rw [hw]; exact hk false (fun _ => ⟨rfl, hm⟩)
  · rw [hw]; exact hk true (fun h => by cases h)

theorem answers_withChannel {s : State} {i : Instr} {c : Channel} {t : State}
    (he : exec i s = withChannel c s (.next t)) (hk : HasEp s c.ep → Effect s i t) : Answers s i := by
  rw [Answers, he]
  rcases withChannel_cases c s (.next t) with ⟨r, hw⟩ | ⟨hc, hw⟩
  · exact ⟨_, hw, .faulted i r⟩
  · exact ⟨_, hw, hk hc⟩

theorem answers_withMem {s : State} {i : Instr} {a : Word} {n : Nat} {kind : MemKind} {t : State}
    (he : exec i s = withMem a n kind s (.next t)) (hk : a.toNat + n ≤ 2 ^ 32 → Effect s i t) : Answers s i := by
  rw [Answers, he]
  rcases withMem_cases a n kind s (.next t) with ⟨r, hw⟩ | ⟨q, hq, hw⟩ | ⟨hf, hw⟩
  · exact ⟨_, hw, .faulted i r⟩
  · exact ⟨_, hw, .turnedAway i q (by rcases hq with rfl | rfl <;> simp [refusalCodes])⟩
  · exact ⟨_, hw, hk hf⟩

theorem answers_sie (s : State) (tok : Tok) (ep : Ep) (pid : DataPid) (payload : List Byte) (ack lax : Bool) :
    Answers s (sieInstr tok ep pid payload ack lax) := by
  obtain ⟨pid', payload', ack', lax', he⟩ : ∃ pid' payload' ack' lax',
      exec (sieInstr tok ep pid payload ack lax) s = sieTransaction tok ep pid' payload' ack' lax' s := by
    cases tok with
    | setup => exact ⟨pid, payload, false, lax, rfl⟩
    | out => exact ⟨pid, payload, false, false, rfl⟩
    | inn => exact ⟨.data0, [], ack, false, rfl⟩
  rw [Answers, he]
  rcases sieTransaction_cases tok ep pid' payload' ack' lax' s with
    ⟨ev, k, h⟩ | ⟨hh, h⟩ | ⟨q, hq, h⟩ | ⟨bytes, n, ev, k, hc, h⟩
  · exact ⟨_, h, .answered ..⟩
  · exact ⟨_, h, .faulted _ _⟩
  · exact ⟨_, h, .turnedAway _ q hq⟩
  · exact ⟨_, h, .completed _ _ _ _ _ _ _ _ _ _ hc⟩

theorem setCtrl_answers (s : State) (h : Handle) (ctrl : Byte) : Answers s (.bdtSetCtrl h ctrl) := by
  simp only [Answers, exec, execBdtSetCtrl]
  refine answers_withEntry fun b hb => ?_
  obtain ⟨rfl, hm⟩ := hb rfl
  rcases fwWriteCtrl_cases h ctrl s with ⟨-, -, hw⟩ | ⟨p, hw, hp⟩
  · rw [hw]; exact ⟨_, rfl, .faulted _ _⟩
  · rw [hw]; exact ⟨_, rfl, .wroteCtrl h ctrl p hm hp⟩

theorem setEntry_barrierEffect {s : State} {h : Handle} (e : BdtEntry) (he : e.sync = .acquired) :
    (s.setEntry h e).barrierEffect = s.barrierEffect.setEntry h e := by
  have : mapTable BdtEntry.afterBarrier (s.bdt.set (handleIndex h) e) =
      (mapTable BdtEntry.afterBarrier s.bdt).set (handleIndex h) e := by
    apply Vector.ext
    intro i hi
    simp only [getElem_mapTable, Vector.getElem_set]
    split
    · simp [BdtEntry.afterBarrier, he]
    · rfl
  simp only [State.barrierEffect, State.setEntry, this]

theorem writeBc_writeAddr (s : State) (h : Handle) (bc : Half) (addr : Word) :
    (s.writeBc h bc).writeAddr h addr =
      s.setEntry h { s.entry h with bc := bc, bcW := true, addr := addr, addrW := true } := by
  simp only [State.writeBc, State.writeAddr, entry_setEntry_same, setEntry_setEntry]

theorem init_answers (s : State) (h : Handle) (ctrl : Byte) (bc : Half) (addr : Word) :
    Answers s (.bdtInit h ctrl bc addr) := by
  simp only [Answers, exec, execBdtInit]
  refine answers_withEntry fun b hb => ?_
  obtain ⟨rfl, hm⟩ := hb rfl
  have hs : ((s.writeBc h bc).writeAddr h addr).barrierEffect = s.barrierEffect.setEntry h
      { s.entry h with bc := bc, bcW := true, addr := addr, addrW := true } := by
    rw [writeBc_writeAddr, setEntry_barrierEffect _ (by exact hm.isAcquired)]
  rw [hs]
  rcases fwWriteCtrl_cases h ctrl (s.barrierEffect.setEntry h
      { s.entry h with bc := bc, bcW := true, addr := addr, addrW := true }) with ⟨-, hp, -⟩ | ⟨p, hw, -⟩
  · exact absurd hp (by simp)
  · rw [hw]
    rw [entry_setEntry_same, setEntry_setEntry]
    exact ⟨_, rfl, .initialised h ctrl bc addr p hm⟩

theorem statPop_answers (s : State) : Answers s .statPop := by
  cases hq : s.statQ with
  | nil =>
    exact answers_returns rfl .empty (by simp only [exec, execStatPop, hq])
  | cons b rest =>
    exact ⟨_, by simp only [exec, execStatPop, hq], .popped b rest hq⟩

theorem readCtrl_answers (s : State) (h : Handle) : Answers s (.bdtReadCtrl h) := by
  by_cases he : hasEndpoint s.cfg h.ep = true
  · exact ⟨_, by simp only [exec, execBdtReadCtrl, he, if_true]; rfl, .readCtrl h ((hasEndpoint_iff ..).1 he) _ _⟩
  · exact ⟨_, by simp only [exec, execBdtReadCtrl, he]; rfl, .faulted _ _⟩

/-- Every operation answers a next state, one of `Effect`. -/
theorem answers (i : Instr) (s : State) : Answers s i := by
  cases i with
  | bdtInit h ctrl bc addr => exact init_answers s h ctrl bc addr
  | bdtSetBc h bc => exact answers_withEntry fun b hb => ⟨_, rfl, .wroteBc h bc (hb rfl).2⟩
  | bdtSetAddr h addr => exact answers_withEntry fun b hb => ⟨_, rfl, .wroteAddr h addr (hb rfl).2⟩
  | bdtSetCtrl h ctrl => exact setCtrl_answers s h ctrl
  | bdtReadCtrl h => exact readCtrl_answers s h
  | bdtReadBc h =>
    simp only [Answers, exec, execBdtReadBc]
    exact answers_withEntry fun _ _ => ⟨_, rfl, .returned _ rfl _ _⟩
  | bdtReadAddr h =>
    simp only [Answers, exec, execBdtReadAddr]
    exact answers_withEntry fun _ _ => ⟨_, rfl, .returned _ rfl _ _⟩
  | flipBuf ep dir => exact answers_withChannel rfl (.flippedBuf ep dir)
  | flipData ep dir => exact answers_withChannel rfl (.flippedData ep dir)
  | clearToggles ep dir => exact answers_withChannel rfl (.cleared ep dir)
  | readToggles ep dir => exact answers_withChannel rfl fun _ => .returned _ rfl _ 0
  | oddReset => exact ⟨_, rfl, .aligned⟩
  | statPop => exact statPop_answers s
  | statDecode _ => exact answers_returns rfl _ rfl
  | statEncode _ _ _ => exact answers_returns rfl _ rfl
  | statToHandle _ => exact answers_returns rfl _ rfl
  | reqRecipient _ => exact answers_returns rfl _ rfl
  | reqType _ => exact answers_returns rfl _ rfl
  | reqDirection _ => exact answers_returns rfl _ rfl
  | requestType _ _ _ => exact answers_returns rfl _ rfl
  | setupDecode _ => exact answers_returns rfl _ rfl
  | setupEncode _ => exact answers_returns rfl _ rfl
  | ctrlSetupView _ => exact answers_returns rfl _ rfl
  | ctrlResultView _ => exact answers_returns rfl _ rfl
  | ctrlPack _ => exact answers_returns rfl _ rfl
  | notBuf _ => exact answers_returns rfl _ rfl
  | notData _ => exact answers_returns rfl _ rfl
  | barrier => exact ⟨_, rfl, .barrier⟩
  | memStore1 v a => exact answers_withMem rfl fun hf => .stored _ a _ rfl (by simpa using hf)
  | memStore2 v a => exact answers_withMem rfl fun hf => .stored _ a _ rfl (by simpa using hf)
  | memStore4 v a => exact answers_withMem rfl fun hf => .stored _ a _ rfl (by simpa using hf)
  | memLoad1 a => exact answers_withMem rfl fun _ => .returned _ rfl _ _
  | memLoad2 a => exact answers_withMem rfl fun _ => .returned _ rfl _ _
  | memLoad4 a => exact answers_withMem rfl fun _ => .returned _ rfl _ _
  | setupFetch a => exact answers_withMem rfl fun _ => .returned _ rfl _ _
  | sieSetup ep pid payload lax => exact answers_sie s .setup ep pid payload false lax
  | sieOut ep pid payload => exact answers_sie s .out ep pid payload false false
  | sieIn ep ack => exact answers_sie s .inn ep .data0 [] ack false

/-- Every operation answers a next state: none stops the machine itself (R271, R272). -/
theorem exec_next (i : Instr) (s : State) : ∃ t, exec i s = .next t :=
  (answers i s).imp fun _ h => h.1

/-- The next state of an operation is one of `Effect`. -/
theorem exec_effect {i : Instr} {s t : State} (h : exec i s = .next t) : Effect s i t := by
  obtain ⟨u, hu, he⟩ := answers i s
  rw [h] at hu
  cases hu
  exact he

end Sys2Proof.Machine
end

