-- ==== Sys2Proof/Laws/PerInstr.lean ====
section
/-! SUPPORT. The family of laws `EncodedRow`, one lemma per constructor: the encoding of an instruction has the bits
that its row of spec/opcode_table.json fixes. -/

namespace Sys2Proof.Laws.EncodedRow

open Sys2Proof

/-- The bits a row of spec/opcode_table.json fixes: the operation code or token PID byte, and for a memory operation the
size code. -/
def fixedBits : Instr → Byte × Option (BitVec 2)
  | .bdtInit _ _ _ _ => (0x01#8, none)
  | .bdtSetBc _ _ => (0x02#8, none)
  | .bdtSetAddr _ _ => (0x03#8, none)
  | .bdtSetCtrl _ _ => (0x04#8, none)
  | .bdtReadCtrl _ => (0x05#8, none)
  | .bdtReadBc _ => (0x06#8, none)
  | .bdtReadAddr _ => (0x07#8, none)
  | .flipBuf _ _ => (0x10#8, none)
  | .flipData _ _ => (0x11#8, none)
  | .clearToggles _ _ => (0x12#8, none)
  | .readToggles _ _ => (0x13#8, none)
  | .oddReset => (0x14#8, none)
  | .statPop => (0x20#8, none)
  | .statDecode _ => (0x21#8, none)
  | .statEncode _ _ _ => (0x22#8, none)
  | .statToHandle _ => (0x23#8, none)
  | .reqRecipient _ => (0x30#8, none)
  | .reqType _ => (0x31#8, none)
  | .reqDirection _ => (0x32#8, none)
  | .requestType _ _ _ => (0x33#8, none)
  | .setupDecode _ => (0x34#8, none)
  | .setupEncode _ => (0x35#8, none)
  | .ctrlSetupView _ => (0x36#8, none)
  | .ctrlResultView _ => (0x37#8, none)
  | .ctrlPack _ => (0x38#8, none)
  | .notBuf _ => (0x39#8, none)
  | .notData _ => (0x3A#8, none)
  | .barrier => (0x40#8, none)
  | .memStore1 _ _ => (0x41#8, some 0#2)
  | .memStore2 _ _ => (0x41#8, some 1#2)
  | .memStore4 _ _ => (0x41#8, some 2#2)
  | .memLoad1 _ => (0x42#8, some 0#2)
  | .memLoad2 _ => (0x42#8, some 1#2)
  | .memLoad4 _ => (0x42#8, some 2#2)
  | .setupFetch _ => (0x43#8, none)
  | .sieSetup _ _ _ _ => (0x2D#8, none)
  | .sieOut _ _ _ => (0xE1#8, none)
  | .sieIn _ _ => (0x69#8, none)

/-- The encoding of `i` has its row's fixed bits; bits 7:0 of a record's word 0 are 0 (R101, R102, R104). -/
def Statement (i : Instr) : Prop :=
  match encode i with
  | .command r => r.op = (fixedBits i).1 ∧ r.low = 0#8 ∧ ∀ z, (fixedBits i).2 = some z → r.sz = z
  | .host h => tokenPidByte h.token = (fixedBits i).1

theorem of_word0 {i : Instr} {op : Byte} {ep : Ep} {dir par : BitVec 1} {sz : BitVec 2} {b : Byte} {v a : Word}
    (he : encode i = .command ⟨word0 op ep dir par sz b, v, a⟩) (hop : op = (fixedBits i).1)
    (hsz : ∀ z, (fixedBits i).2 = some z → sz = z) : Statement i := by
  rw [Statement, he]
  exact ⟨by rw [op_word0, hop], low_word0 .., fun z hz => by rw [sz_word0, hsz z hz]⟩

theorem bdtInit : ∀ a b c d, Statement (.bdtInit a b c d) :=
  fun _ _ _ _ => of_word0 rfl rfl (fun _ h => by cases h)

theorem bdtSetBc : ∀ a b, Statement (.bdtSetBc a b) :=
  fun _ _ => of_word0 rfl rfl (fun _ h => by cases h)

theorem bdtSetAddr : ∀ a b, Statement (.bdtSetAddr a b) :=
  fun _ _ => of_word0 rfl rfl (fun _ h => by cases h)

theorem bdtSetCtrl : ∀ a b, Statement (.bdtSetCtrl a b) :=
  fun _ _ => of_word0 rfl rfl (fun _ h => by cases h)

theorem bdtReadCtrl : ∀ a, Statement (.bdtReadCtrl a) :=
  fun _ => of_word0 rfl rfl (fun _ h => by cases h)

theorem bdtReadBc : ∀ a, Statement (.bdtReadBc a) :=
  fun _ => of_word0 rfl rfl (fun _ h => by cases h)

theorem bdtReadAddr : ∀ a, Statement (.bdtReadAddr a) :=
  fun _ => of_word0 rfl rfl (fun _ h => by cases h)

theorem flipBuf : ∀ a b, Statement (.flipBuf a b) :=
  fun _ _ => of_word0 rfl rfl (fun _ h => by cases h)

theorem flipData : ∀ a b, Statement (.flipData a b) :=
  fun _ _ => of_word0 rfl rfl (fun _ h => by cases h)

theorem clearToggles : ∀ a b, Statement (.clearToggles a b) :=
  fun _ _ => of_word0 rfl rfl (fun _ h => by cases h)

theorem readToggles : ∀ a b, Statement (.readToggles a b) :=
  fun _ _ => of_word0 rfl rfl (fun _ h => by cases h)

theorem oddReset : Statement (.oddReset) :=
  of_word0 rfl rfl (fun _ h => by cases h)

theorem statPop : Statement (.statPop) :=
  of_word0 rfl rfl (fun _ h => by cases h)

theorem statDecode : ∀ a, Statement (.statDecode a) :=
  fun _ => of_word0 rfl rfl (fun _ h => by cases h)

theorem statEncode : ∀ a b c, Statement (.statEncode a b c) :=
  fun _ _ _ => of_word0 rfl rfl (fun _ h => by cases h)

theorem statToHandle : ∀ a, Statement (.statToHandle a) :=
  fun _ => of_word0 rfl rfl (fun _ h => by cases h)

theorem reqRecipient : ∀ a, Statement (.reqRecipient a) :=
  fun _ => of_word0 rfl rfl (fun _ h => by cases h)

theorem reqType : ∀ a, Statement (.reqType a) :=
  fun _ => of_word0 rfl rfl (fun _ h => by cases h)

theorem reqDirection : ∀ a, Statement (.reqDirection a) :=
  fun _ => of_word0 rfl rfl (fun _ h => by cases h)

theorem requestType : ∀ a b c, Statement (.requestType a b c) :=
  fun _ _ _ => of_word0 rfl rfl (fun _ h => by cases h)

theorem setupDecode : ∀ a, Statement (.setupDecode a) :=
  fun _ => of_word0 rfl rfl (fun _ h => by cases h)

theorem setupEncode : ∀ a, Statement (.setupEncode a) :=
  fun _ => of_word0 rfl rfl (fun _ h => by cases h)

theorem ctrlSetupView : ∀ a, Statement (.ctrlSetupView a) :=
  fun _ => of_word0 rfl rfl (fun _ h => by cases h)

theorem ctrlResultView : ∀ a, Statement (.ctrlResultView a) :=
  fun _ => of_word0 rfl rfl (fun _ h => by cases h)

theorem ctrlPack : ∀ a, Statement (.ctrlPack a) :=
  fun _ => of_word0 rfl rfl (fun _ h => by cases h)

theorem notBuf : ∀ a, Statement (.notBuf a) :=
  fun _ => of_word0 rfl rfl (fun _ h => by cases h)

theorem notData : ∀ a, Statement (.notData a) :=
  fun _ => of_word0 rfl rfl (fun _ h => by cases h)

theorem barrier : Statement (.barrier) :=
  of_word0 rfl rfl (fun _ h => by cases h)

theorem memStore1 : ∀ a b, Statement (.memStore1 a b) :=
  fun _ _ => of_word0 rfl rfl (fun _ h => Option.some.inj h)

theorem memStore2 : ∀ a b, Statement (.memStore2 a b) :=
  fun _ _ => of_word0 rfl rfl (fun _ h => Option.some.inj h)

theorem memStore4 : ∀ a b, Statement (.memStore4 a b) :=
  fun _ _ => of_word0 rfl rfl (fun _ h => Option.some.inj h)

theorem memLoad1 : ∀ a, Statement (.memLoad1 a) :=
  fun _ => of_word0 rfl rfl (fun _ h => Option.some.inj h)

theorem memLoad2 : ∀ a, Statement (.memLoad2 a) :=
  fun _ => of_word0 rfl rfl (fun _ h => Option.some.inj h)

theorem memLoad4 : ∀ a, Statement (.memLoad4 a) :=
  fun _ => of_word0 rfl rfl (fun _ h => Option.some.inj h)

theorem setupFetch : ∀ a, Statement (.setupFetch a) :=
  fun _ => of_word0 rfl rfl (fun _ h => by cases h)

theorem sieSetup : ∀ a b c d, Statement (.sieSetup a b c d) :=
  fun _ _ _ _ => pidByte_tokenFor _ _

theorem sieOut : ∀ a b c, Statement (.sieOut a b c) :=
  fun _ _ _ => pidByte_tokenFor _ _

theorem sieIn : ∀ a b, Statement (.sieIn a b) :=
  fun _ _ => pidByte_tokenFor _ _

end Sys2Proof.Laws.EncodedRow
end

