-- ==== Sys2Proof/Machine/Asm.lean ====
section
/-! DEFINITION. The textual syntax of operations (R108): mnemonic, then comma-separated operands, numbers in
decimal, a handle as `ep,dir,par`, a byte list in square brackets. -/

namespace Sys2Proof.Machine

/-- A number (R108). -/
def asmNat (n : Nat) : String := Nat.repr n

/-- A value of the block as a number. -/
def asmBits {w : Nat} (v : BitVec w) : String := asmNat v.toNat

/-- `rx` or `tx`. -/
def asmDir : Dir → String
  | .rx => "rx"
  | .tx => "tx"

/-- `even` or `odd`. -/
def asmPar : Par → String
  | .even => "even"
  | .odd => "odd"

/-- `DATA0` or `DATA1`. -/
def asmPid : DataPid → String
  | .data0 => "DATA0"
  | .data1 => "DATA1"

/-- `ep,dir,par`. -/
def asmHandle (h : Handle) : String := asmBits h.ep ++ "," ++ asmDir h.dir ++ "," ++ asmPar h.par

/-- `ep,dir`. -/
def asmChannel (ep : Ep) (dir : Dir) : String := asmBits ep ++ "," ++ asmDir dir

/-- `[b0 b1 ...]`. -/
def asmBytes (s : List Byte) : String := "[" ++ " ".intercalate (s.map asmBits) ++ "]"

/-- Operands after a mnemonic. -/
def asmLine (name : String) (operands : List String) : String := name ++ " " ++ ", ".intercalate operands

/-- The line of an operation (R108). The syntax has no place for the laxity choice of `host.setup`. -/
def asmText : Instr → String
  | .bdtInit h ctrl bc addr => asmLine "bdt.init" [asmHandle h, asmBits ctrl, asmBits bc, asmBits addr]
  | .bdtSetBc h bc => asmLine "bdt.setbc" [asmHandle h, asmBits bc]
  | .bdtSetAddr h addr => asmLine "bdt.setaddr" [asmHandle h, asmBits addr]
  | .bdtSetCtrl h ctrl => asmLine "bdt.setctrl" [asmHandle h, asmBits ctrl]
  | .bdtReadCtrl h => asmLine "bdt.rdctrl" [asmHandle h]
  | .bdtReadBc h => asmLine "bdt.rdbc" [asmHandle h]
  | .bdtReadAddr h => asmLine "bdt.rdaddr" [asmHandle h]
  | .flipBuf ep dir => asmLine "tgl.flipbuf" [asmChannel ep dir]
  | .flipData ep dir => asmLine "tgl.flipdata" [asmChannel ep dir]
  | .clearToggles ep dir => asmLine "tgl.clear" [asmChannel ep dir]
  | .readToggles ep dir => asmLine "tgl.read" [asmChannel ep dir]
  | .oddReset => "sie.oddrst"
  | .statPop => "stat.pop"
  | .statDecode raw => asmLine "stat.decode" [asmBits raw]
  | .statEncode endp tx odd => asmLine "stat.encode" [asmBits endp, asmBits tx, asmBits odd]
  | .statToHandle raw => asmLine "stat.handle" [asmBits raw]
  | .reqRecipient b => asmLine "req.recipient" [asmBits b]
  | .reqType b => asmLine "req.type" [asmBits b]
  | .reqDirection b => asmLine "req.direction" [asmBits b]
  | .requestType d t r => asmLine "req.pack" [asmBits d, asmBits t, asmBits r]
  | .setupDecode s => asmLine "setup.decode" [asmBytes s]
  | .setupEncode p => asmLine "setup.encode" [asmBits p.recipient, asmBits p.type, asmBits p.direction,
      asmBits p.bRequest, asmBits p.wValue, asmBits p.wIndex, asmBits p.wLength]
  | .ctrlSetupView c => asmLine "ctrl.setupview" [asmBits c]
  | .ctrlResultView c => asmLine "ctrl.resultview" [asmBits c]
  | .ctrlPack f => asmLine "ctrl.pack" [asmBits f.own, asmBits f.data01, asmBits f.keep, asmBits f.ninc,
      asmBits f.dts, asmBits f.bdtStall]
  | .notBuf t => asmLine "tgl.notbuf" [asmNat (bitNat t.bit)]
  | .notData t => asmLine "tgl.notdata" [asmNat (bitNat t.bit)]
  | .barrier => "fence"
  | .memStore1 v addr => asmLine "mem.st1" [asmBits addr, asmBits v]
  | .memStore2 v addr => asmLine "mem.st2" [asmBits addr, asmBits v]
  | .memStore4 v addr => asmLine "mem.st4" [asmBits addr, asmBits v]
  | .memLoad1 addr => asmLine "mem.ld1" [asmBits addr]
  | .memLoad2 addr => asmLine "mem.ld2" [asmBits addr]
  | .memLoad4 addr => asmLine "mem.ld4" [asmBits addr]
  | .setupFetch addr => asmLine "setup.fetch" [asmBits addr]
  | .sieSetup ep pid payload _ => asmLine "host.setup" [asmBits ep, asmPid pid, asmBytes payload]
  | .sieOut ep pid payload => asmLine "host.out" [asmBits ep, asmPid pid, asmBytes payload]
  | .sieIn ep ack => asmLine "host.in" [asmBits ep, asmNat (bitNat ack)]

end Sys2Proof.Machine
end

