-- ==== Sys2Proof/Tests/Slice0.lean ====
section
/-! SUPPORT. Tests. Every expected result is a vector, an example or a table row of spec/ (named at each group), or a
hand calculation from a rule; nothing here is the model's own answer. -/

namespace Sys2Proof.Tests

open Sys2Proof Sys2Proof.Machine

/-! ## WellFormed smoke -/

theorem test_wf_eight_bytes : (Instr.setupDecode [0, 5, 7, 0, 0, 0, 0, 0]).wellFormed = true := by decide
theorem test_wf_refuses_seven_bytes : (Instr.setupDecode [0, 5, 7, 0, 0, 0, 0]).wellFormed = false := by decide
theorem test_wf_refuses_nine_bytes : (Instr.setupDecode [0, 5, 7, 0, 0, 0, 0, 0, 0]).wellFormed = false := by decide

/-! ## Decoding: words written out from R101, R102 and `95_test_vectors.md` (L2 and L3) -/

/-- Three hex words as the spec writes a record. -/
def rec3 (w0 v a : Nat) : Encoded := .command ⟨BitVec.ofNat 32 w0, BitVec.ofNat 32 v, BitVec.ofNat 32 a⟩

/-- A host step with the given token. -/
def host (t : Nat) (pid : DataPid) (payload : List Byte) (ack lax : Bool) : Encoded :=
  .host ⟨BitVec.ofNat 24 t, pid, payload, ack, lax⟩

/-- The operation an encoding spells. -/
def dec (e : Encoded) : Option Instr :=
  match decode e with
  | .ok i => some i
  | .error _ => none

theorem test_decode_bdtInit : dec (rec3 0x011CC800 0x00000002 0x20000240) =
    some (.bdtInit ⟨1, .tx, .odd⟩ 0xC8 2 0x20000240) := by decide
theorem test_decode_bdtSetBc : dec (rec3 0x02200000 0x00000040 0) = some (.bdtSetBc ⟨2, .rx, .even⟩ 64) := by decide
theorem test_decode_bdtSetAddr : dec (rec3 0x03200000 0 0x20000400) =
    some (.bdtSetAddr ⟨2, .rx, .even⟩ 0x20000400) := by decide
theorem test_decode_bdtSetCtrl : dec (rec3 0x04208800 0 0) = some (.bdtSetCtrl ⟨2, .rx, .even⟩ 0x88) := by decide
theorem test_decode_bdtReadCtrl : dec (rec3 0x051C0000 0 0) = some (.bdtReadCtrl ⟨1, .tx, .odd⟩) := by decide
theorem test_decode_bdtReadBc : dec (rec3 0x061C0000 0 0) = some (.bdtReadBc ⟨1, .tx, .odd⟩) := by decide
theorem test_decode_bdtReadAddr : dec (rec3 0x07F40000 0 0) = some (.bdtReadAddr ⟨15, .rx, .odd⟩) := by decide
theorem test_decode_flipBuf : dec (rec3 0x10180000 0 0) = some (.flipBuf 1 .tx) := by decide
theorem test_decode_flipData : dec (rec3 0x11500000 0 0) = some (.flipData 5 .rx) := by decide
theorem test_decode_clearToggles : dec (rec3 0x12180000 0 0) = some (.clearToggles 1 .tx) := by decide
theorem test_decode_readToggles : dec (rec3 0x13080000 0 0) = some (.readToggles 0 .tx) := by decide
theorem test_decode_oddReset : dec (rec3 0x14000000 0 0) = some .oddReset := by decide
theorem test_decode_statPop : dec (rec3 0x20000000 0 0) = some .statPop := by decide
theorem test_decode_statDecode : dec (rec3 0x21005C00 0 0) = some (.statDecode 0x5C) := by decide
theorem test_decode_statEncode : dec (rec3 0x22180000 0 0) = some (.statEncode 1 1 0) := by decide
theorem test_decode_statToHandle : dec (rec3 0x23001800 0 0) = some (.statToHandle 0x18) := by decide
theorem test_decode_reqRecipient : dec (rec3 0x30002100 0 0) = some (.reqRecipient 0x21) := by decide
theorem test_decode_reqType : dec (rec3 0x3100C000 0 0) = some (.reqType 0xC0) := by decide
theorem test_decode_reqDirection : dec (rec3 0x32008000 0 0) = some (.reqDirection 0x80) := by decide
theorem test_decode_requestType : dec (rec3 0x33000000 0x00010203 0) = some (.requestType 1 2 3) := by decide
theorem test_decode_setupDecode : dec (rec3 0x34000000 0x00070500 0) =
    some (.setupDecode [0x00, 0x05, 0x07, 0x00, 0x00, 0x00, 0x00, 0x00]) := by decide
theorem test_decode_setupEncode : dec (rec3 0x35000000 0x01000680 0x00400000) =
    some (.setupEncode ⟨0, 0, 1, 6, 0x0100, 0, 0x40⟩) := by decide
theorem test_decode_ctrlSetupView : dec (rec3 0x36008800 0 0) = some (.ctrlSetupView 0x88) := by decide
theorem test_decode_ctrlResultView : dec (rec3 0x37003400 0 0) = some (.ctrlResultView 0x34) := by decide
theorem test_decode_ctrlPack : dec (rec3 0x38000000 0x00000013 0) = some (.ctrlPack ⟨1, 1, 0, 0, 1, 0⟩) := by decide
theorem test_decode_notBuf : dec (rec3 0x39000100 0 0) = some (.notBuf .odd) := by decide
theorem test_decode_notData : dec (rec3 0x3A000000 0 0) = some (.notData .data0) := by decide
theorem test_decode_barrier : dec (rec3 0x40000000 0 0) = some .barrier := by decide
theorem test_decode_memStore1 : dec (rec3 0x41000000 0x000000AB 0x20000410) =
    some (.memStore1 0xAB 0x20000410) := by decide
theorem test_decode_memStore2 : dec (rec3 0x41010000 0x00006655 0x20000240) =
    some (.memStore2 0x6655 0x20000240) := by decide
theorem test_decode_memStore4 : dec (rec3 0x41020000 0x44332211 0x20000200) =
    some (.memStore4 0x44332211 0x20000200) := by decide
theorem test_decode_memLoad1 : dec (rec3 0x42000000 0 0x20000410) = some (.memLoad1 0x20000410) := by decide
theorem test_decode_memLoad2 : dec (rec3 0x42010000 0 0x20000400) = some (.memLoad2 0x20000400) := by decide
theorem test_decode_memLoad4 : dec (rec3 0x42020000 0 0x20000200) = some (.memLoad4 0x20000200) := by decide
theorem test_decode_setupFetch : dec (rec3 0x43000000 0 0x20000100) = some (.setupFetch 0x20000100) := by decide
/-- ENDP 3 (bits 18:15), ADDR 0x55 (bits 14:8), CRC5 0x1F (bits 23:19): 0xF9D52D. -/
theorem test_decode_sieSetup : dec (host 0xF9D52D .data1 [1, 2] false true) =
    some (.sieSetup 3 .data1 [1, 2] true) := by decide
theorem test_decode_sieOut : dec (host 0x0180E1 .data0 [9] false false) = some (.sieOut 3 .data0 [9]) := by decide
theorem test_decode_sieIn : dec (host 0x078069 .data0 [] true false) = some (.sieIn 15 true) := by decide

/-! Refused encodings: M13, M14, M15 of L2.7, and R106. -/

theorem test_decode_refuses_unknown_op : decode (rec3 0x50000000 0 0) = .error .unknownOp := by decide
theorem test_decode_refuses_size_3 : decode (rec3 0x41030000 0 0) = .error .reservedSize := by decide
theorem test_decode_refuses_low_byte : decode (rec3 0x40000001 0 0) = .error .lowBitsNotZero := by decide
theorem test_decode_refuses_sof_token : decode (host 0x0000A5 .data0 [] true false) = .error .notAToken := by decide
theorem test_decode_ignores_unused : dec (rec3 0x40FFFF00 0xFFFFFFFF 0xFFFFFFFF) = some .barrier := by decide

/-! Token and data PID bytes (R99, R100). -/

theorem test_token_pid_bytes : [Tok.out, .inn, .setup].map (fun t => pidByte t.pid) = [0xE1#8, 0x69#8, 0x2D#8] := by
  decide
theorem test_handshake_pid_bytes : [Handshake.ack, .nak, .stall].map (fun p => pidByte p.pid) =
    [0xD2#8, 0x5A#8, 0x1E#8] := by decide
theorem test_data_pid_bytes : [DataPid.data0, .data1].map (fun p => (pidByte p.pid, p.toggle)) =
    [(0xC3#8, false), (0x4B#8, true)] := by decide

/-! The host's numbering of table words. -/

theorem test_decodeTableWord_cmd : decodeTableWord 32 0x14000000 = some .oddReset := by decide
theorem test_decodeTableWord_token : decodeTableWord 24 0x018069 = some (.sieIn 3 false) := by decide

/-! ## Helpers for one step -/

/-- The state an operation answers, if it answers one. -/
def after (r : Result) : State :=
  match r with
  | .next s => s
  | .fault _ => State.reset
  | .refused _ => State.reset

/-- The newest value of the result log. -/
def lastOut (r : Result) : Option Value := (after r).outLog.getLast?

/-- The codes of the recorded faults, and the refusal mark. -/
def marks (r : Result) : List Fault × Option Refusal := ((after r).faultCodes, (after r).refused)

/-- The bus event and the marks. -/
def busAndMarks (r : Result) : Option BusEvent × Option Refusal := ((after r).busTrace.getLast?, (after r).refused)

/-- Reset with one entry given. -/
def withE (h : Handle) (e : BdtEntry) : State := State.reset.setEntry h e

/-- An entry whose three fields FW has written. -/
def ent (ctrl : Byte) (bc : Half) (addr : Word) (sync : Sync) : BdtEntry :=
  { ctrl := ctrl, rsvd := 0x5A, bc := bc, addr := addr, ctrlW := true, bcW := true, addrW := true, sync := sync }

/-- The entries of L2.6: `(6,rx,even)` and `(6,tx,even)`, released over 0x20000800. -/
def rx6 (ctrl : Byte) (bc : Half) : State := withE ⟨6, .rx, .even⟩ (ent ctrl bc 0x20000800 .acquired)
def tx6 (ctrl : Byte) (bc : Half) : State := withE ⟨6, .tx, .even⟩ (ent ctrl bc 0x20000800 .acquired)

/-! ## Codec (L2.1) -/

theorem test_reqRecipient : (lastOut (exec (.reqRecipient 0x7F) .reset), lastOut (exec (.reqRecipient 0x21) .reset)) =
    (some (.u5 31), some (.u5 1)) := by decide
theorem test_reqType : lastOut (exec (.reqType 0xC0) .reset) = some (.u2 2) := by decide
theorem test_reqDirection : lastOut (exec (.reqDirection 0x80) .reset) = some (.u1 1) := by decide
theorem test_requestType : lastOut (exec (.requestType 1 2 3) .reset) = some (.u8 0xC3) := by decide
theorem test_requestType_reserved : lastOut (exec (.requestType 0 3 31) .reset) = some (.u8 0x7F) := by decide
theorem test_setupDecode : lastOut (exec (.setupDecode [0xC0, 0x01, 0x34, 0x12, 0x78, 0x56, 0xBC, 0x9A]) .reset) =
    some (.setup ⟨0, 2, 1, 1, 0x1234, 0x5678, 0x9ABC⟩) := by decide
theorem test_setupEncode : lastOut (exec (.setupEncode ⟨0, 0, 1, 6, 0x0100, 0, 0x40⟩) .reset) =
    some (.bytes [0x80, 0x06, 0x00, 0x01, 0x00, 0x00, 0x40, 0x00]) := by decide
theorem test_set_address_name : standardRequestName 0x05 = some "SET_ADDRESS" := by decide
theorem test_named_fields : (recipientName (reqRecipient 0x21), requestKindName (reqType 0x21),
    recipientName (reqRecipient 0x24)) = (.interface, .class_, .reserved) := by decide
/-- R122's examples 0x80 (in) and 0x21 (out), by name. -/
theorem test_direction_names : (requestDirName (reqDirection 0x80), requestDirName (reqDirection 0x21)) = (.in_, .out) := by
  decide
/-- The packets of R127's and R128's examples (`wLength` 0 and 0x40 in), and one that sends data to the device. -/
theorem test_dataStage : (dataStage ⟨0, 0, 0, 5, 7, 0, 0⟩, dataStage ⟨0, 0, 1, 6, 0x0100, 0, 0x40⟩,
    dataStage ⟨0, 0, 0, 7, 0x0100, 0, 0x12⟩) = (none, some .in_, some .out) := by decide

/-! ## Control-byte views (L2.2) -/

theorem test_ctrlSetupView : lastOut (exec (.ctrlSetupView 0xC8) .reset) =
    some (.setupView ⟨⟨1, 1, 0, 0, 1, 0⟩, 0⟩) := by decide
theorem test_ctrlResultView : lastOut (exec (.ctrlResultView 0x64) .reset) =
    some (.resultView ⟨0, 1, 0x9, 0⟩) := by decide
theorem test_ctrlPack : (lastOut (exec (.ctrlPack ⟨1, 0, 0, 0, 0, 1⟩) .reset),
    lastOut (exec (.ctrlPack ⟨0, 0, 1, 1, 0, 0⟩) .reset)) = (some (.u8 0x84), some (.u8 0x30)) := by decide
theorem test_completedCtrl : (completedCtrl 0xC8 Tok.setup.pid, completedCtrl 0xC0 Tok.out.pid,
    completedCtrl 0x88 Tok.inn.pid) = (0x74#8, 0x44#8, 0x24#8) := by decide

/-! ## BDT set and toggles (L2.3, R109) -/

theorem test_entryAddr : (entryAddr .default ⟨1, .tx, .odd⟩, entryAddr .default ⟨15, .tx, .odd⟩) =
    (0x1FFFE038, 0x1FFFE1F8) := by decide
theorem test_entryImage : entryImage (ent 0x88 8 0x20000100 .acquired) =
    [0x88, 0x5A, 0x08, 0x00, 0x00, 0x01, 0x00, 0x20] := by decide
theorem test_notBuf : lastOut (exec (.notBuf .even) .reset) = some (.buf .odd) := by decide
theorem test_notData : lastOut (exec (.notData .data1) .reset) = some (.data .data0) := by decide
theorem test_flipBuf : (after (exec (.flipBuf 1 .tx) .reset)).bufToggle ⟨1, .tx⟩ = .odd := by decide
theorem test_flipBuf_bad_handle : marks (exec (.flipBuf 5 .rx) { State.reset with cfg.numEp := 4 }) =
    ([.badHandle], none) := by decide
theorem test_flipData : (after (exec (.flipData 1 .tx) .reset)).dataToggle ⟨1, .tx⟩ = .data1 := by decide
theorem test_clearToggles :
    lastOut (exec (.readToggles 1 .tx) (after (exec (.clearToggles 1 .tx)
      ((State.reset.setBufToggle ⟨1, .tx⟩ .odd).setDataToggle ⟨1, .tx⟩ .data1)))) =
    some (.toggles .even .data0) := by decide
theorem test_readToggles : lastOut (exec (.readToggles 3 .rx) .reset) = some (.toggles .even .data0) := by decide
theorem test_oddReset : (after (exec .oddReset (State.reset.setParity ⟨1, .tx⟩ .odd))).parity ⟨1, .tx⟩ = .even := by
  decide
theorem test_pseudo_arm : Instr.bdtArm ⟨1, .tx, .odd⟩ 1 2 0x20000240 = .bdtInit ⟨1, .tx, .odd⟩ 0xC8 2 0x20000240 := by
  decide

/-! ## Status (L2.4) -/

theorem test_statDecode : (lastOut (exec (.statDecode 0x15) .reset), lastOut (exec (.statDecode 0x53) .reset)) =
    (some (.stat ⟨1, 0, 1⟩), some (.stat ⟨5, 0, 0⟩)) := by decide
theorem test_statEncode : lastOut (exec (.statEncode 5 1 1) .reset) = some (.u8 0x5C) := by decide
theorem test_statToHandle : lastOut (exec (.statToHandle 0xFF) .reset) = some (.handle ⟨15, .tx, .odd⟩) := by decide
theorem test_statPop_empty : lastOut (exec .statPop .reset) = some .empty := by decide
theorem test_statPop : (fun r => (lastOut r, (after r).statQ)) (exec .statPop (State.reset.setStatQ [0x18, 0x1C])) =
    (some (.u8 0x18), [0x1C]) := by decide

/-! ## Entry operations (L2.5, L3) -/

theorem test_bdtInit_releases : (fun s => ((s.entry ⟨0, .rx, .even⟩).ctrl, (s.entry ⟨0, .rx, .even⟩).bc, s.pending))
    (after (exec (.bdtInit ⟨0, .rx, .even⟩ 0x88 8 0x20000100) (State.reset.setPending true))) =
    (0x88, 8, false) := by decide
theorem test_bdtInit_own_violation : marks (exec (.bdtInit ⟨6, .rx, .even⟩ 0x88 8 0) (rx6 0x88 8)) =
    ([.ownViolation], none) := by decide
theorem test_bdtSetBc : (fun s => ((s.entry ⟨2, .rx, .even⟩).bc, s.pending, s.pc))
    (after (exec (.bdtSetBc ⟨2, .rx, .even⟩ 64) .reset)) = (64, true, 1) := by decide
theorem test_bdtSetBc_E3 : marks (exec (.bdtSetBc ⟨6, .rx, .even⟩ 8) (rx6 0x88 8)) = ([.ownViolation], none) := by decide
theorem test_bdtSetAddr : (fun s => ((s.entry ⟨2, .rx, .even⟩).addr, s.pending))
    (after (exec (.bdtSetAddr ⟨2, .rx, .even⟩ 0x20000400) .reset)) = (0x20000400, true) := by decide
theorem test_bdtSetCtrl_P4 : (fun r => ((marks r).1, (after r).pc, (after r).entry ⟨2, .rx, .even⟩))
    (exec (.bdtSetCtrl ⟨2, .rx, .even⟩ 0x88) { State.reset with pc := 2, pending := true }) =
    ([.unorderedRelease], 2, BdtEntry.reset) := by decide
theorem test_bdtSetCtrl_P4b : ((after (exec (.bdtSetCtrl ⟨2, .rx, .even⟩ 0x88) .reset)).entry ⟨2, .rx, .even⟩).ctrl =
    0x88 := by decide
theorem test_bdtReadCtrl_handback : (fun r => (lastOut r, ((after r).entry ⟨0, .rx, .even⟩).sync))
    (exec (.bdtReadCtrl ⟨0, .rx, .even⟩) (withE ⟨0, .rx, .even⟩ (ent 0x34 8 0x20000100 .completed))) =
    (some (.u8 0x34), .observed) := by decide
theorem test_bdtReadCtrl_E12 : (fun r => (lastOut r, ((after r).entry ⟨6, .tx, .even⟩).sync))
    (exec (.bdtReadCtrl ⟨6, .tx, .even⟩) (tx6 0x84 0)) = (some (.u8 0x84), .acquired) := by decide
theorem test_bdtReadBc_E7 : lastOut (exec (.bdtReadBc ⟨6, .rx, .even⟩) (rx6 0x04 2)) = some (.u16 2) := by decide
theorem test_bdtReadBc_E6 : marks (exec (.bdtReadBc ⟨2, .rx, .even⟩)
    (withE ⟨2, .rx, .even⟩ (ent 0x04 2 0x20000400 .observed))) = ([.unorderedAcquire], none) := by decide
theorem test_bdtReadAddr : lastOut (exec (.bdtReadAddr ⟨6, .rx, .even⟩) (rx6 0x04 2)) = some (.u32 0x20000800) := by
  decide

/-! ## Barrier and memory (L2.7) -/

theorem test_barrier_acquires : (fun s => ((s.entry ⟨0, .rx, .even⟩).sync, s.pending))
    (after (exec .barrier ((withE ⟨0, .rx, .even⟩ (ent 0x34 8 0 .observed)).setPending true))) =
    (.acquired, false) := by decide
theorem test_barrier_keeps_completed : ((after (exec .barrier (withE ⟨0, .rx, .even⟩ (ent 0x34 8 0 .completed)))).entry
    ⟨0, .rx, .even⟩).sync = .completed := by decide
theorem test_memStore4_M1 : (fun s => (s.mem, s.pending)) (after (exec (.memStore4 0x44332211 0x20000200) .reset)) =
    ([(0x20000200, 0x11), (0x20000201, 0x22), (0x20000202, 0x33), (0x20000203, 0x44)], true) := by decide
theorem test_memStore4_M3 : marks (exec (.memStore4 1 0x20000202) .reset) = ([.misaligned], none) := by decide
theorem test_memStore2_M2 : (after (exec (.memStore2 0x1234 0x20000200) .reset)).mem =
    [(0x20000200, 0x34), (0x20000201, 0x12)] := by decide
theorem test_memStore2_M4 : marks (exec (.memStore2 1 0xFFFFFFFF) .reset) = ([.misaligned], none) := by decide
theorem test_memStore1_M8 : marks (exec (.memStore1 5 0x20000810) (rx6 0x88 64)) = ([.ownViolation], none) := by decide
theorem test_memStore1_top : (after (exec (.memStore1 7 0xFFFFFFFF) .reset)).mem = [(0xFFFFFFFF, 7)] := by decide
theorem test_memLoad1_M7 : marks (exec (.memLoad1 0x1FFFE000) .reset) = ([], some .arenaAccess) := by decide
theorem test_memLoad1 : lastOut (exec (.memLoad1 0x20000201) (State.reset.setMem [(0x20000201, 0xFE)])) =
    some (.u32 0xFE) := by decide
theorem test_memLoad2_P6 : (marks (exec (.memLoad2 0x20000800)
      (withE ⟨6, .rx, .even⟩ (ent 0x04 2 0x20000800 .completed))),
    lastOut (exec (.memLoad2 0x20000800) ((rx6 0x04 2).setMem [(0x20000800, 0xAA), (0x20000801, 0xBB)]))) =
    (([.unorderedAcquire], none), some (.u32 0xBBAA)) := by decide
theorem test_memLoad4_M10 : lastOut (exec (.memLoad4 0x20000800) ((tx6 0x88 4).setMem
      [(0x20000800, 0x11), (0x20000801, 0x22), (0x20000802, 0x33), (0x20000803, 0x44)])) =
    some (.u32 0x44332211) := by decide
theorem test_setupFetch_M6 : marks (exec (.setupFetch 0xFFFFFFFC) .reset) = ([], some .addrWrap) := by decide
theorem test_setupFetch_P1 : lastOut (exec (.setupFetch 0x20000101)
      (State.reset.setMem (Memory.writeBytes [] 0x20000101 [0x00, 0x05, 0x07, 0x00, 0x00, 0x00, 0x00, 0x00]))) =
    some (.setup ⟨0, 0, 0, 5, 7, 0, 0⟩) := by decide

/-! ## SIE transactions (L2.6, R213 to R215) -/

theorem test_sieSetup_S6 : (fun s => ((s.entry ⟨6, .rx, .even⟩).ctrl, (s.entry ⟨6, .rx, .even⟩).bc, s.statQ,
      s.parity ⟨6, .rx⟩)) (after (exec (.sieSetup 6 .data0 [0, 5, 7, 0, 0, 0, 0, 0] true) (rx6 0x84 8))) =
    (0x34, 8, [0x60], .odd) := by decide
theorem test_sieSetup_S5 : busAndMarks (exec (.sieSetup 6 .data0 [0] false) (rx6 0x84 8)) =
    (some (.answer .setup 6 .stall), none) := by decide
theorem test_sieOut_S14 : (fun r => (busAndMarks r, ((after r).entry ⟨6, .rx, .even⟩).ctrl))
    (exec (.sieOut 6 .data1 [1, 2]) (rx6 0x88 8)) =
    ((some (.received .out 6 .data1 [1, 2] false), none), 0x88) := by decide
theorem test_sieOut_S15 : (fun s => ((s.entry ⟨6, .rx, .even⟩).ctrl, (s.entry ⟨6, .rx, .even⟩).bc, s.statQ, s.mem))
    (after (exec (.sieOut 6 .data1 [1, 2]) (rx6 0x80 8))) =
    (0x04, 2, [0x60], [(0x20000800, 1), (0x20000801, 2)]) := by decide
theorem test_sieIn_S18 : (fun r => ((after r).busTrace, ((after r).entry ⟨6, .tx, .even⟩).ctrl, (after r).statQ))
    (exec (.sieIn 6 true) ((tx6 0xC0 2).setMem [(0x20000800, 0xAA), (0x20000801, 0xBB)])) =
    ([.sent 6 .data1 [0xAA, 0xBB] true], 0x64, [0x68]) := by decide
theorem test_sieIn_S17 : busAndMarks (exec (.sieIn 6 true) (tx6 0x88 1024)) = (none, some .bcLimit) := by decide

/-- The answers and refusals S1 to S4, S7, S9 to S11, S13 and S21 of L2.6, and E10 of L2.5. -/
theorem test_sie_disabled : busAndMarks (exec (.sieOut 6 .data0 [1])
    { rx6 0x88 8 with cfg.disabled := [⟨6, .rx⟩] }) = (some (.answer .out 6 .noResponse), none) := by decide
theorem test_sie_full_queue : busAndMarks (exec (.sieOut 6 .data0 [1]) ((rx6 0x88 8).setStatQ [0, 4, 8, 12])) =
    (some (.answer .out 6 .nak), none) := by decide
theorem test_sie_no_skip : busAndMarks (exec (.sieOut 6 .data0 [1])
    (withE ⟨6, .rx, .odd⟩ (ent 0x88 8 0x20000800 .acquired))) = (some (.answer .out 6 .nak), none) := by decide
theorem test_sie_keep : busAndMarks (exec (.sieOut 6 .data0 [1]) (rx6 0xA8 8)) = (none, some .keepNinc) := by decide
theorem test_sie_reserved : busAndMarks (exec (.sieOut 6 .data0 [1]) (rx6 0x89 8)) =
    (none, some .reservedCtrl) := by decide
theorem test_sie_overflow : busAndMarks (exec (.sieOut 6 .data0 [1, 2]) (rx6 0x88 1)) = (none, some .overflow) := by
  decide
theorem test_sie_range_wrap : busAndMarks (exec (.sieOut 6 .data0 [1])
    (withE ⟨6, .rx, .even⟩ (ent 0x88 4 0xFFFFFFFE .acquired))) = (none, some .bufferRange) := by decide
theorem test_sie_range_arena : busAndMarks (exec (.sieOut 6 .data0 [1])
    (withE ⟨6, .rx, .even⟩ (ent 0x88 4 0x1FFFE100 .acquired))) = (none, some .bufferRange) := by decide
theorem test_sie_unwritten_E10 : (after (exec (.sieOut 4 .data0 [1])
    (withE ⟨4, .rx, .even⟩ { BdtEntry.reset with ctrl := 0x80, ctrlW := true }))).faults =
    [⟨.sieUnwritten, .handle ⟨4, .rx, .even⟩, none⟩] := by decide

/-! ## Steps -/

theorem test_step_runs_command : (after (step (State.reset.withFetchWord 32 0x20000000))).outLog = [.empty] := by decide
theorem test_step_runs_token : (after (step (State.reset.withFetchWord 24 0x000069))).busTrace =
    [.answer .inn 0 .nak] := by decide
theorem test_step_bad_command : (fun s => (s.refused, s.pc)) (after (step (State.reset.withFetchWord 32 0x50000000))) =
    (some .badCommand, 0) := by decide
theorem test_step_faulted_stops : (match step (State.reset.addFault (sieFault ⟨4, .rx, .even⟩)) with
    | .fault f => f == .sieUnwritten
    | .next _ | .refused _ => false) = true := by decide
theorem test_launch_config : (State.launch { Config.default with bdtBase := 0x1FFFE100 } [] []).refused =
    some .config := by decide
theorem test_default_config_legal : legalConfig .default = true := by decide
theorem test_blockReset : (fun s => (s.entry ⟨6, .rx, .even⟩, s.parity ⟨6, .rx⟩, s.statQ))
    (blockReset (((rx6 0x88 8).setParity ⟨6, .rx⟩ .odd).setStatQ [0x60])) =
    ({ BdtEntry.reset with rsvd := 0x5A }, .even, []) := by decide

/-! ## Syntax (R108) -/

theorem test_asm_init : asmText (.bdtInit ⟨1, .tx, .odd⟩ 0xC8 2 0x20000240) = "bdt.init 1,tx,odd, 200, 2, 536871488" := by
  decide

end Sys2Proof.Tests
end

