-- ==== Sys2Proof/Tests/Witness.lean ====
section
/-! SUPPORT. For every statement with hypotheses, concrete states and operands that meet them, one theorem a statement:
its hypotheses, clause by clause, at values where clauses meet. -/

namespace Sys2Proof.Tests

open Sys2Proof Sys2Proof.Machine

/-- The default configuration with one endpoint: endpoint 0 exists and endpoint 1 does not. -/
def oneEp : State := { State.reset with cfg := { Config.default with numEp := 1 } }

/-- A command record of word 0 alone. -/
def rec0 (w0 : Nat) : Record := ⟨BitVec.ofNat 32 w0, 0, 0⟩

/-- A record of operation code `op` with every operand bit 1. -/
def fullRec (op : Nat) : Record := ⟨BitVec.ofNat 32 (op * 2 ^ 24 + 0xFCFF00), 0xFFFFFFFF, 0xFFFFFFFF⟩

/-- An entry handed back and not yet observed, over 0x20000800. -/
def back6 (sync : Sync) : State := withE ⟨6, .rx, .even⟩ (ent 0x04 8 0x20000800 sync)

/-! ## Reset, launch, steps -/

theorem witness_LaunchGivesResetValues : legalConfig Config.default = true ∧
    legalConfig { Config.default with numEp := 1, bdtAlign := 32, bdtBase := 2 ^ 32 - 32 } = true := by decide

theorem witness_LaunchRefusesIllegalParameters : legalConfig { Config.default with numEp := 17 } = false ∧
    legalConfig { Config.default with bdtBase := 2 ^ 32 } = false ∧
    legalConfig { Config.default with maxPacket := 65536 } = false ∧
    legalConfig { Config.default with maxPacket := 65535 } = true := by decide

theorem witness_BlockResetInARun : Safe { rx6 0x88 8 with sched := [.blockReset] } ∧
    ({ rx6 0x88 8 with sched := [.blockReset] } : State).sched = .blockReset :: [] :=
  ⟨⟨rfl, rfl⟩, rfl⟩

/-- FW's turn, by an empty schedule and by one that says so. -/
theorem witness_StepRunsDecodedCommand :
    (let s := { State.reset with prog := [rec0 0x40000000] }
     Safe s ∧ FwTurn s ∧ s.prog[s.pc]? = some (rec0 0x40000000)) ∧
    (let s := { State.reset with prog := [rec0 0x40000000], sched := [.fw] }
     Safe s ∧ FwTurn s ∧ s.prog[s.pc]? = some (rec0 0x40000000)) ∧
    decode (.command (rec0 0x40000000)) = .ok .barrier :=
  ⟨⟨⟨rfl, rfl⟩, .inl rfl, rfl⟩, ⟨⟨rfl, rfl⟩, .inr ⟨[], rfl⟩, rfl⟩, rfl⟩

theorem witness_StepRunsDecodedToken :
    (let s := { rx6 0x88 8 with sched := [.host ⟨0x0300E1, .data0, [1], false, false⟩] }
     Safe s ∧ s.sched = .host ⟨0x0300E1, .data0, [1], false, false⟩ :: []) ∧
    decode (.host ⟨0x0300E1, .data0, [1], false, false⟩) = .ok (.sieOut 6 .data0 [1]) :=
  ⟨⟨⟨rfl, rfl⟩, rfl⟩, rfl⟩

/-- A record with low bits, one with an unknown code, one of a memory operation with the reserved size. -/
theorem witness_BadCommandIsRefused :
    (let s := { State.reset with prog := [rec0 0x40000001] }
     Safe s ∧ FwTurn s ∧ s.prog[s.pc]? = some (rec0 0x40000001)) ∧
    SpellsNothing 0x40000001 ∧ SpellsNothing 0x44000000 ∧ SpellsNothing 0x42030000 ∧ ¬ SpellsNothing 0x42020000 := by
  refine ⟨⟨⟨rfl, rfl⟩, .inl rfl, rfl⟩, ?_⟩
  unfold SpellsNothing
  decide

theorem witness_FaultedOrRefusedStateStops :
    (State.reset.addFault (sieFault ⟨4, .rx, .even⟩)).faults = sieFault ⟨4, .rx, .even⟩ :: [] ∧
    (State.reset.setRefused .badCommand).faults = [] ∧
    (State.reset.setRefused .badCommand).refused = some .badCommand := by decide

theorem witness_TurnsWithoutAStepPass : Safe State.reset ∧ FwTurn State.reset ∧
    State.reset.prog.length ≤ State.reset.pc ∧
    Safe { State.reset with sched := [.host ⟨0x0000A5, .data0, [], false, false⟩] } ∧
    (0x0000A5#24).toNat % 256 ∉ [0x2D, 0xE1, 0x69] :=
  ⟨⟨rfl, rfl⟩, .inl rfl, Nat.le_refl _, ⟨rfl, rfl⟩, by decide⟩

theorem witness_MarksAreSticky : (∃ t, exec .barrier (State.reset.setRefused .overflow) = .next t) ∧
    (State.reset.setRefused .overflow).refused = some .overflow ∧ State.reset.refused = none :=
  ⟨exec_next _ _, by decide, rfl⟩

theorem witness_FaultsAndRefusalsHaveNoOtherEffect :
    (after (exec (.flipBuf 1 .rx) oneEp)).faults ≠ oneEp.faults ∧
    (after (exec (.memLoad4 0xFFFFFFFC) { oneEp with cfg := { oneEp.cfg with bdtBase := 2 ^ 32 - 32 } })).refused ≠
      none := by
  decide

/-- A SIE transaction, an FW operation that completes, and one that faults. -/
theorem witness_LogsGrowAndPcAdvances : (∃ t, exec (.sieOut 6 .data0 [1]) (rx6 0x88 8) = .next t) ∧
    Instr.sieOut 6 .data0 [1] = sieInstr .out 6 .data0 [1] false false ∧
    (∀ tok ep pid payload ack lax, Instr.barrier ≠ sieInstr tok ep pid payload ack lax) ∧
    Safe State.reset ∧ Safe (after (exec .barrier State.reset)) :=
  ⟨exec_next _ _, rfl, by intro tok; cases tok <;> simp [sieInstr], ⟨rfl, rfl⟩, by decide, by decide⟩

/-! ## Encodings -/

theorem witness_DecodeOfEncode : (Instr.setupDecode [0, 5, 7, 0, 0, 0, 0, 0]).wellFormed = true ∧
    (Instr.bdtInit ⟨15, .tx, .odd⟩ 0xFF 0xFFFF 0xFFFFFFFF).wellFormed = true := by decide

theorem witness_EveryRecordOneRowOrRefused :
    (commandRows.filter (fun w => w.matches (rec0 0x42020000).w0)).length = 1 ∧
    commandRows.filter (fun w => w.matches (rec0 0x42030000).w0) = [] := by decide

theorem witness_TokenSelectsTransaction : (0x07802D#24).toNat % 256 = 0x2D ∧ (0x0780E1#24).toNat % 256 = 0xE1 ∧
    (0x078069#24).toNat % 256 = 0x69 ∧ (0x07806A#24).toNat % 256 ∉ [0x2D, 0xE1, 0x69] := by decide

/-- The hypothesis `Spells r op` of the decoding clauses, for every operation code, with every operand bit 0 and with
every operand bit 1. -/
theorem witness_Spells : ∀ op ∈ [0x01, 0x02, 0x03, 0x04, 0x05, 0x06, 0x07, 0x10, 0x11, 0x12, 0x13, 0x14, 0x20, 0x21, 0x22,
    0x23, 0x30, 0x31, 0x32, 0x33, 0x34, 0x35, 0x36, 0x37, 0x38, 0x39, 0x3A, 0x40, 0x41, 0x42, 0x43],
    Spells (rec0 (op * 2 ^ 24)) op ∧ Spells (fullRec op) op := by
  unfold Spells
  decide

/-- The size clauses of the decoding of stores and loads. -/
theorem witness_Spells_sizes : ∀ op ∈ [0x41, 0x42], ∀ sz ∈ [0, 1, 2],
    Spells (rec0 (op * 2 ^ 24 + sz * 2 ^ 16)) op ∧ (rec0 (op * 2 ^ 24 + sz * 2 ^ 16)).w0.toNat / 2 ^ 16 % 4 = sz := by
  unfold Spells
  decide

theorem witness_CodecRoundTrips : ([0x80, 6, 0, 1, 0, 0, 0x40, 0] : List Byte).length = 8 := by decide

/-! ## Toggles and status -/

/-- An endpoint below and one at `NUM_EP`: for the toggle operations and ODD_RESET. -/
theorem witness_FlipChangesOneToggle : HasEp oneEp 0 ∧ ¬ HasEp oneEp 1 ∧ HasEp State.reset 15 := by
  unfold HasEp
  decide

theorem witness_ClearAndReadToggles : HasEp (oneEp.setBufToggle ⟨0, .tx⟩ .odd) 0 ∧ ¬ HasEp oneEp 1 := by
  unfold HasEp
  decide

theorem witness_OddResetAlignsTheSie : HasEp (oneEp.setParity ⟨0, .rx⟩ .odd) (⟨0, .rx⟩ : Channel).ep := by
  unfold HasEp
  decide

/-- One completion and one flip. -/
theorem witness_BufferToggleTracksTheSie :
    let s := tx6 0x88 0
    let is := [Instr.sieIn 6 true, .flipBuf 6 .tx]
    HasEp s 6 ∧ (∀ i ∈ is, i ≠ .clearToggles 6 .tx ∧ i ≠ .oddReset) ∧ (runOps is s).isSome = true ∧
      flipsOf ⟨6, .tx⟩ is = 1 ∧ completionsOn ⟨6, .tx⟩ is s = 1 ∧ (s.bufToggle ⟨6, .tx⟩).toPar = s.parity ⟨6, .tx⟩ := by
  unfold HasEp
  decide

theorem witness_StatPopTakesTheOldest : State.reset.statQ = [] ∧
    (State.reset.setStatQ [0x18, 0x1C]).statQ = 0x18 :: [0x1C] := by decide

theorem witness_InterruptFollowsTheQueue : ∃ t, exec .statPop (State.reset.setStatQ [0x18]) = .next t :=
  exec_next _ _

/-! ## BDT entries -/

theorem witness_EntriesNeverAlias : (⟨0, .rx, .even⟩ : Handle) ≠ ⟨0, .rx, .odd⟩ ∧ HasEp oneEp 0 ∧
    oneEp.cfg.bdtBase ≤ oneEp.cfg.bdtBase + 31 ∧
    oneEp.cfg.bdtBase + 31 < entryAddr oneEp.cfg ⟨0, .tx, .odd⟩ + 8 := by
  unfold HasEp
  decide

/-- What the entry operations ask of the entry: access allowed; and each of the three faults. -/
theorem witness_BdtInitWritesTheEntry : MayAccess oneEp ⟨0, .tx, .odd⟩ ∧ ¬ HasEp oneEp 1 ∧
    (HasEp (rx6 0x88 8) 6 ∧ OwnedBySie ((rx6 0x88 8).entry ⟨6, .rx, .even⟩)) ∧
    (HasEp (back6 .observed) 6 ∧ OwnedByMcu ((back6 .observed).entry ⟨6, .rx, .even⟩) ∧
      ((back6 .observed).entry ⟨6, .rx, .even⟩).sync ≠ .acquired) := by
  refine ⟨⟨?_, ?_, ?_⟩, ?_⟩ <;> (try simp only [HasEp, OwnedBySie, OwnedByMcu]) <;> decide

theorem witness_SetBcAndSetAddrWriteOneField : MayAccess (back6 .acquired) ⟨6, .rx, .even⟩ ∧ ¬ HasEp oneEp 1 ∧
    OwnedBySie ((rx6 0x80 8).entry ⟨6, .rx, .even⟩) ∧
    ((back6 .completed).entry ⟨6, .rx, .even⟩).sync ≠ .acquired := by
  refine ⟨⟨?_, ?_, ?_⟩, ?_⟩ <;> (try simp only [HasEp, OwnedBySie, OwnedByMcu]) <;> decide

/-- A plain write, a release after a barrier, and a release before one. -/
theorem witness_SetCtrlWritesOrReleases : MayAccess (back6 .acquired) ⟨6, .rx, .even⟩ ∧
    MayAccess ((back6 .acquired).setPending true) ⟨6, .rx, .even⟩ ∧
    (0x7F#8)[7] = false ∧ (0x80#8)[7] = true ∧ (back6 .acquired).pending = false ∧
    ((back6 .acquired).setPending true).pending = true := by
  refine ⟨⟨?_, ?_, ?_⟩, ⟨?_, ?_, ?_⟩, ?_⟩ <;> (try simp only [HasEp, OwnedByMcu]) <;> decide

theorem witness_ReadCtrlObservesTheHandback : ¬ HasEp oneEp 1 ∧ HasEp (back6 .completed) 6 ∧
    ((back6 .completed).entry ⟨6, .rx, .even⟩).ctrlW = true ∧
    (OwnedByMcu ((back6 .completed).entry ⟨6, .rx, .even⟩) ∧
      ((back6 .completed).entry ⟨6, .rx, .even⟩).sync = .completed) ∧
    ¬ (OwnedByMcu ((back6 .observed).entry ⟨6, .rx, .even⟩) ∧
      ((back6 .observed).entry ⟨6, .rx, .even⟩).sync = .completed) := by
  simp only [HasEp, OwnedByMcu]
  decide

theorem witness_ReadBcAndReadAddr : (MayAccess (back6 .acquired) ⟨6, .rx, .even⟩ ∧
      ((back6 .acquired).entry ⟨6, .rx, .even⟩).bcW = true ∧
      ((back6 .acquired).entry ⟨6, .rx, .even⟩).addrW = true) ∧
    (HasEp (rx6 0x88 8) 6 ∧ OwnedBySie ((rx6 0x88 8).entry ⟨6, .rx, .even⟩)) ∧ ¬ HasEp oneEp 1 ∧
    OwnedByMcu ((back6 .completed).entry ⟨6, .rx, .even⟩) ∧
    ((back6 .completed).entry ⟨6, .rx, .even⟩).sync ≠ .acquired := by
  refine ⟨⟨⟨?_, ?_, ?_⟩, ?_⟩, ?_⟩ <;> (try simp only [HasEp, OwnedBySie, OwnedByMcu]) <;> decide

theorem witness_EntryFieldsAreIndependent : (∃ t, exec (.bdtSetBc ⟨6, .rx, .even⟩ 64) (back6 .acquired) = .next t) ∧
    (∃ t, exec (.bdtInit ⟨6, .rx, .even⟩ 0x88 64 0x20000000) (back6 .acquired) = .next t) ∧
    (⟨6, .rx, .odd⟩ : Handle) ≠ ⟨6, .rx, .even⟩ :=
  ⟨exec_next _ _, exec_next _ _, by decide⟩

theorem witness_InitNeverUnorderedRelease : .unorderedRelease ∉ ((back6 .acquired).setPending true).faultCodes ∧
    ∃ t, exec (.bdtInit ⟨6, .rx, .even⟩ 0x88 64 0x20000000) ((back6 .acquired).setPending true) = .next t :=
  ⟨by decide, exec_next _ _⟩

/-! ## Memory operations -/

/-- The checks of R252, clause by clause: a misaligned address; an access that ends at 2^32 and one that passes it; the
byte before the arena, its first and its last byte, and the byte after it. -/
theorem witness_MemoryChecks :
    (0x20000001#32).toNat % 2 ≠ 0 ∧ (0x20000002#32).toNat % 2 = 0 ∧
    (0xFFFFFFFC#32).toNat + 4 ≤ 2 ^ 32 ∧ 2 ^ 32 < (0xFFFFFFFC#32).toNat + 8 ∧
    ¬ Touches 0x1FFFDFFF 1 (ArenaByte State.reset.cfg) ∧ Touches 0x1FFFE000 1 (ArenaByte State.reset.cfg) ∧
    Touches 0x1FFFE1FF 1 (ArenaByte State.reset.cfg) ∧ ¬ Touches 0x1FFFE200 1 (ArenaByte State.reset.cfg) := by
  simp only [← meetsArena_iff]
  decide

/-- The buffers: a store into a SIE-owned one, and an access to one not acquired, at its first and last byte and not
outside it. -/
theorem witness_MemoryChecks_buffers :
    TouchesSieBuffer (rx6 0x88 8) 0x20000800 1 ∧ TouchesSieBuffer (tx6 0x88 8) 0x20000807 1 ∧
    ¬ TouchesSieBuffer (rx6 0x88 8) 0x200007FF 1 ∧ ¬ TouchesSieBuffer (rx6 0x88 8) 0x20000808 1 ∧
    (∃ h, UnacquiredBuffer (back6 .observed) 0x20000807 1 h) ∧
    (∃ h, UnacquiredBuffer (back6 .completed) 0x20000800 1 h) ∧
    ¬ ∃ h, UnacquiredBuffer (back6 .completed) 0x20000808 1 h := by
  refine ⟨?_, ?_, ?_, ?_, ?_, ?_, ?_⟩
  · rw [← storeHitsSie_iff]; decide
  · rw [← storeHitsSie_iff]; decide
  · rw [← storeHitsSie_iff]; decide
  · rw [← storeHitsSie_iff]; decide
  · exact ⟨⟨6, .rx, .even⟩, unacquiredAt_some (by decide)⟩
  · exact ⟨⟨6, .rx, .even⟩, unacquiredAt_some (by decide)⟩
  · exact unacquiredAt_none (by decide)

theorem memoryFree_of {s : State} {addr : Word} {n : Nat} {aligned isStore : Bool}
    (h1 : aligned = false ∨ addr.toNat % n = 0) (h2 : addr.toNat + n ≤ 2 ^ 32)
    (h3 : meetsArena s.cfg addr.toNat n = false) (h4 : storeHitsSie s addr.toNat n = false)
    (h5 : unacquiredAt s addr.toNat n = none) : MemoryFree s addr n aligned isStore := by
  refine ⟨h1, h2, ?_, .inr ?_, unacquiredAt_none h5⟩
  · rw [← meetsArena_iff, h3]; decide
  · rw [← storeHitsSie_iff, h4]; decide

/-- The checks pass: beside a SIE-owned buffer, and at the end of the address space. -/
theorem witness_StoresWriteTheirBytes : MemoryFree (rx6 0x88 8) 0x20000808 4 true true ∧
    MemoryFree (rx6 0x88 8) 0xFFFFFFFC 4 true true ∧ MemoryFree (rx6 0x88 8) 0x20000810 2 true true ∧
    MemoryFree (rx6 0x88 8) 0xFFFFFFFF 1 true true := by
  refine ⟨?_, ?_, ?_, ?_⟩ <;> apply memoryFree_of <;> decide

/-- A written byte that the SIE is not writing: all four of a load beside a SIE-owned receive buffer. -/
theorem witness_LoadsReturnTheirBytes :
    let s := (rx6 0x88 8).setMem [(0x20000808, 1), (0x20000809, 2), (0x2000080A, 3), (0x2000080B, 4)]
    MemoryFree s 0x20000808 4 true false ∧
      ∀ k ∈ List.range 4, ¬ SieMayWrite s (0x20000808 + k) ∧ s.mem.read (0x20000808 + k) = some (BitVec.ofNat 8 (k + 1)) := by
  refine ⟨?_, ?_⟩
  · apply memoryFree_of <;> decide
  · simp only [← drawnByte_iff]
    decide

theorem witness_SetupFetchDecodesMemory :
    let s := State.reset.setMem [(0x20000101, 0), (0x20000108, 9)]
    MemoryFree s 0x20000101 8 false false ∧ ¬ SieMayWrite s 0x20000108 ∧ s.mem.read 0x20000108 = some 9 := by
  refine ⟨?_, ?_, by decide⟩
  · apply memoryFree_of <;> decide
  · rw [← drawnByte_iff]; decide

/-! ## Transactions -/

/-- An endpoint that does not exist, and a disabled channel of one that does. -/
theorem witness_UnansweredTokenChangesNothing : ¬ Answered oneEp .out 1 ∧
    ¬ Answered { State.reset with cfg := { Config.default with disabled := [⟨6, .tx⟩] } } .inn 6 ∧
    Answered { State.reset with cfg := { Config.default with disabled := [⟨6, .tx⟩] } } .out 6 := by
  simp only [← answers_iff]
  decide

theorem engaged_of {s : State} {tok : Tok} {ep : Ep} (h1 : sieAnswers tok ep s = true)
    (h2 : s.statQ.length ≠ s.cfg.statDepth) (h3 : (s.entry (sieHandle tok ep s)).isSie = true) :
    Engaged s tok ep (sieHandle tok ep s) :=
  ⟨(answers_iff ..).1 h1, h2, (selects_iff ..).2 rfl, (isSie_iff _).1 h3⟩

/-- A full queue; and an MCU-owned entry while the other parity's is SIE-owned. -/
theorem witness_NakChangesNothing :
    (let s := (rx6 0x88 8).setStatQ [0, 4, 8, 12]
     Answered s .out 6 ∧ Selects s .out 6 ⟨6, .rx, .even⟩ ∧ s.statQ.length = s.cfg.statDepth) ∧
    (let s := withE ⟨6, .rx, .odd⟩ (ent 0x88 8 0x20000800 .acquired)
     Answered s .setup 6 ∧ Selects s .setup 6 ⟨6, .rx, .even⟩ ∧ OwnedByMcu (s.entry ⟨6, .rx, .even⟩)) := by
  simp only [← answers_iff, selects_iff, OwnedByMcu]
  decide

theorem witness_StallChangesNothing : Engaged (rx6 0x84 8) .setup 6 (sieHandle .setup 6 (rx6 0x84 8)) ∧
    ((rx6 0x84 8).entry (sieHandle .setup 6 (rx6 0x84 8))).ctrl[2] = true ∧ ¬ Lax .setup false ∧
    Engaged (tx6 0x84 8) .inn 6 (sieHandle .inn 6 (tx6 0x84 8)) ∧ ¬ Lax .inn true := by
  refine ⟨?_, by decide, by simp [Lax], ?_, by simp [Lax]⟩ <;> apply engaged_of <;> decide

/-- An entry whose byte count FW has not written. -/
def unwritten6 : State := withE ⟨6, .rx, .even⟩ { BdtEntry.reset with ctrl := 0x80, ctrlW := true }

/-- Each guard: KEEP, NINC, the reserved bits, unwritten fields, a buffer past 2^32; and a stalled SETUP let through. -/
theorem witness_TransactionGuards :
    Engaged (rx6 0xA0 8) .out 6 (sieHandle .out 6 (rx6 0xA0 8)) ∧
    ((rx6 0xA0 8).entry ⟨6, .rx, .even⟩).ctrl[2] = false ∧ ((rx6 0xA0 8).entry ⟨6, .rx, .even⟩).ctrl[5] = true ∧
    ((rx6 0x90 8).entry ⟨6, .rx, .even⟩).ctrl[4] = true ∧
    ((rx6 0x81 8).entry ⟨6, .rx, .even⟩).ctrl.toNat % 4 ≠ 0 ∧
    Engaged unwritten6 .out 6 (sieHandle .out 6 unwritten6) ∧ (unwritten6.entry ⟨6, .rx, .even⟩).bcW = false ∧
    ¬ RangeFits State.reset (ent 0x80 4 0xFFFFFFFD .acquired) ∧ RangeFits State.reset (ent 0x80 4 0xFFFFFFFC .acquired) ∧
    Lax .setup true := by
  refine ⟨?_, by decide, by decide, by decide, by decide, ?_, by decide, ?_, ?_, by simp [Lax]⟩
  · apply engaged_of <;> decide
  · apply engaged_of <;> decide
  · rw [← rangeOK_iff]; decide
  · rw [← rangeOK_iff]; decide

theorem cleared_of {s : State} {tok : Tok} {ep : Ep} {lax : Bool} {h : Handle} (hh : h = sieHandle tok ep s)
    (h1 : sieAnswers tok ep s = true) (h2 : s.statQ.length ≠ s.cfg.statDepth) (h3 : (s.entry h).isSie = true)
    (h4 : (s.entry h).ctrl[2] = false ∨ ignoresStallAndToggle tok lax = true) (h5 : (s.entry h).ctrl[5] = false)
    (h6 : (s.entry h).ctrl[4] = false) (h7 : (s.entry h).ctrl.toNat % 4 = 0) (h8 : (s.entry h).bcW = true)
    (h9 : (s.entry h).addrW = true) (h10 : rangeOK s.cfg (s.entry h).addr.toNat (s.entry h).bc.toNat = true) :
    Cleared s tok ep lax h := by
  subst hh
  exact ⟨engaged_of h1 h2 h3, by rwa [ignores_iff] at h4, h5, h6, h7, h8, h9, (rangeOK_iff _ (s.entry _)).1 h10⟩

/-- A payload one byte too long, and a count one over `MAX_PACKET`. -/
theorem witness_LengthRefusals : Cleared (rx6 0x88 1) .out 6 false ⟨6, .rx, .even⟩ ∧
    ((rx6 0x88 1).entry ⟨6, .rx, .even⟩).bc.toNat < ([1, 2] : List Byte).length ∧
    Cleared (tx6 0x88 1024) .inn 6 false ⟨6, .tx, .even⟩ ∧
    (tx6 0x88 1024).cfg.maxPacket < ((tx6 0x88 1024).entry ⟨6, .tx, .even⟩).bc.toNat := by
  refine ⟨?_, by decide, ?_, by decide⟩ <;> apply cleared_of <;> decide

theorem witness_ToggleMismatchIsDiscarded : Cleared (rx6 0x88 2) .out 6 false ⟨6, .rx, .even⟩ ∧
    ([1, 2] : List Byte).length ≤ ((rx6 0x88 2).entry ⟨6, .rx, .even⟩).bc.toNat ∧
    ToggleMismatch ((rx6 0x88 2).entry ⟨6, .rx, .even⟩) .data1 ∧ ¬ Lax .out false ∧
    Cleared (rx6 0x80 2) .out 6 false ⟨6, .rx, .even⟩ ∧ ((rx6 0x80 2).entry ⟨6, .rx, .even⟩).ctrl[3] = false := by
  refine ⟨?_, by decide, ?_, by simp [Lax], ?_, by decide⟩
  · apply cleared_of <;> decide
  · unfold ToggleMismatch; decide
  · apply cleared_of <;> decide

/-- A payload that fills the buffer; an empty one into an empty buffer; a SETUP let through a stall and a mismatch. -/
theorem witness_ReceiveCompletes : Cleared (rx6 0x88 2) .out 6 false ⟨6, .rx, .even⟩ ∧
    ([1, 2] : List Byte).length ≤ ((rx6 0x88 2).entry ⟨6, .rx, .even⟩).bc.toNat ∧
    ¬ ToggleMismatch ((rx6 0x88 2).entry ⟨6, .rx, .even⟩) .data0 ∧
    Cleared (rx6 0x80 0) .out 6 false ⟨6, .rx, .even⟩ ∧
    Cleared (rx6 0x8C 8) .setup 6 true ⟨6, .rx, .even⟩ ∧ Lax .setup true := by
  refine ⟨?_, by decide, ?_, ?_, ?_, by simp [Lax]⟩
  · apply cleared_of <;> decide
  · unfold ToggleMismatch; decide
  · apply cleared_of <;> decide
  · apply cleared_of <;> decide

theorem witness_UnacknowledgedInChangesNothing : Cleared (tx6 0xC8 1023) .inn 6 false ⟨6, .tx, .even⟩ ∧
    ((tx6 0xC8 1023).entry ⟨6, .tx, .even⟩).bc.toNat ≤ (tx6 0xC8 1023).cfg.maxPacket := by
  refine ⟨?_, by decide⟩
  apply cleared_of <;> decide

theorem witness_AcknowledgedInCompletes :
    let s := (tx6 0x88 2).setMem [(0x20000800, 0xAA), (0x20000801, 0xBB)]
    Cleared s .inn 6 false ⟨6, .tx, .even⟩ ∧ (s.entry ⟨6, .tx, .even⟩).bc.toNat ≤ s.cfg.maxPacket ∧
      s.mem.read ((s.entry ⟨6, .tx, .even⟩).addr.toNat + 1) = some 0xBB := by
  refine ⟨?_, by decide, by decide⟩
  apply cleared_of <;> decide

/-- A completion; and a STALL, which leaves the entry as it is. -/
theorem witness_TransactionTouchesOneEntry : Selects (rx6 0x84 8) .out 6 ⟨6, .rx, .even⟩ ∧
    (∃ t, exec (sieInstr .out 6 .data0 [1] false false) (rx6 0x88 8) = .next t) ∧
    (after (exec (.sieOut 6 .data0 [1]) (rx6 0x84 8))).entry ⟨6, .rx, .even⟩ = (rx6 0x84 8).entry ⟨6, .rx, .even⟩ ∧
    OwnedBySie ((rx6 0x84 8).entry ⟨6, .rx, .even⟩) := by
  refine ⟨(selects_iff ..).2 (by decide), exec_next _ _, by decide, ?_⟩
  unfold OwnedBySie; decide

/-! ## Whole-machine rules -/

theorem witness_OwnershipChangesHands :
    (OwnedByMcu ((back6 .acquired).entry ⟨6, .rx, .even⟩) ∧
      OwnedBySie ((after (exec (.bdtSetCtrl ⟨6, .rx, .even⟩ 0x88) (back6 .acquired))).entry ⟨6, .rx, .even⟩)) ∧
    (OwnedBySie ((rx6 0x88 8).entry ⟨6, .rx, .even⟩) ∧
      OwnedByMcu ((after (exec (.sieOut 6 .data0 [1]) (rx6 0x88 8))).entry ⟨6, .rx, .even⟩)) := by
  unfold OwnedByMcu OwnedBySie
  decide

/-- The next step of this state is a BARRIER, beside an entry the SIE owns. -/
def released6 : State := (rx6 0x88 8).withFetchWord 32 0x40000000

theorem entry_released6 (h : Handle) : released6.entry h =
    if (⟨6, .rx, .even⟩ : Handle) = h then ent 0x88 8 0x20000800 .acquired else BdtEntry.reset := by
  have h1 : released6.entry h = (rx6 0x88 8).entry h := rfl
  have h2 : State.reset.entry h = BdtEntry.reset := by simp [State.entry, State.reset]
  rw [h1, rx6, withE, entry_setEntry, h2]

theorem inv_released6 : Inv released6 := by
  have h1 : released6.mem = [] := rfl
  have h2 : released6.statQ = [] := rfl
  have h3 : released6.faults = [] := rfl
  have h4 : released6.refused = none := rfl
  refine ⟨by rw [h1]; exact reset_mem_wf, by rw [h2]; exact Nat.zero_le _, by simp [h2], fun h hh => ?_, fun h hh => ?_,
    by simp [h3], by simp [h4]⟩
  · rw [entry_released6] at hh ⊢
    split
    · exact ⟨rfl, rfl⟩
    · rw [if_neg (by assumption)] at hh; simp [OwnedBySie, BdtEntry.reset] at hh
  · rw [entry_released6] at hh
    split at hh <;> exact absurd rfl hh

theorem witness_SieOwnedEntryIsSafeFromFirmware : Inv released6 ∧ OwnedBySie (released6.entry ⟨6, .rx, .even⟩) ∧
    (∀ tok ep pid payload ack lax, Instr.barrier ≠ sieInstr tok ep pid payload ack lax) ∧
    ∃ t, exec .barrier released6 = .next t := by
  refine ⟨inv_released6, ?_, by intro tok; cases tok <;> simp [sieInstr], exec_next _ _⟩
  rw [entry_released6]; simp [OwnedBySie, ent]

/-- Each piece of state is written by one of its writers. -/
theorem witness_OnlyTheirWritersWrite :
    (after (exec (.flipBuf 0 .rx) .reset)).fwBuf ≠ State.reset.fwBuf ∧
    (after (exec (.flipData 0 .rx) .reset)).fwData ≠ State.reset.fwData ∧
    (after (exec (.sieOut 6 .data0 [1]) (rx6 0x88 8))).sieOdd ≠ (rx6 0x88 8).sieOdd ∧
    (after (exec (.sieOut 6 .data0 [1]) (rx6 0x88 8))).statQ ≠ (rx6 0x88 8).statQ ∧
    (after (exec (.sieOut 6 .data0 [1]) (rx6 0x88 8))).mem ≠ (rx6 0x88 8).mem ∧
    (after (exec .barrier (State.reset.setPending true))).pending = false ∧
    ((after (exec (.bdtSetAddr ⟨6, .rx, .even⟩ 4) .reset)).entry ⟨6, .rx, .even⟩).addr ≠
      (State.reset.entry ⟨6, .rx, .even⟩).addr := by
  decide

theorem witness_AcquireNeedsObservationAndBarrier :
    (((back6 .completed).entry ⟨6, .rx, .even⟩).sync ≠ .observed ∧
      ((after (exec (.bdtReadCtrl ⟨6, .rx, .even⟩) (back6 .completed))).entry ⟨6, .rx, .even⟩).sync = .observed) ∧
    (((back6 .observed).entry ⟨6, .rx, .even⟩).sync ≠ .acquired ∧
      ((after (exec .barrier (back6 .observed))).entry ⟨6, .rx, .even⟩).sync = .acquired) := by
  decide

theorem witness_StepKeepsInvariant : Inv released6 ∧ ∃ t, step released6 = .next t :=
  ⟨inv_released6, exec_next .barrier _⟩

end Sys2Proof.Tests
end

section
/-! PROOFS. The launch (R8, R65, R274): what legal parameters are in arithmetic, and what a step answers in a state
that holds no fault, with and without a refusal. -/

namespace Sys2Proof.Machine

/-! ## Legal parameters -/

theorem isPowerOfTwo_iff (n : Nat) : isPowerOfTwo n = true ↔ ∃ k, n = 2 ^ k := by
  simp only [isPowerOfTwo, Bool.and_eq_true, bne_iff_ne, beq_iff_eq]
  constructor
  · rintro ⟨-, hlog⟩
    exact ⟨n.log2, hlog.symm⟩
  · rintro ⟨k, rfl⟩
    exact ⟨Nat.two_pow_pos k |>.ne', by rw [Nat.log2_two_pow]⟩

/-- The legal values of R8, in the order the rule lists them. -/
theorem legalConfig_iff (cfg : Config) : legalConfig cfg = true ↔
    1 ≤ cfg.numEp ∧ cfg.numEp ≤ 16 ∧ 32 ≤ cfg.bdtAlign ∧ (∃ k, cfg.bdtAlign = 2 ^ k) ∧
      cfg.bdtAlign ∣ cfg.bdtBase ∧ cfg.bdtBase + 32 * cfg.numEp ≤ 2 ^ 32 ∧ 1 ≤ cfg.statDepth ∧
      1 ≤ cfg.maxPacket ∧ cfg.maxPacket ≤ 65535 := by
  simp only [legalConfig, Bool.and_eq_true, decide_eq_true_eq, beq_iff_eq, isPowerOfTwo_iff,
    Nat.dvd_iff_mod_eq_zero]
  tauto

/-! ## What a step answers -/

/-- The outcome of an action: that of its operation, or the one it names. -/
def Action.outcome : Action → Result
  | .run i s => exec i s
  | .done r => r

@[simp] theorem Action.outcome_run (i : Instr) (s : State) : (Action.run i s).outcome = exec i s := rfl

@[simp] theorem Action.outcome_done (r : Result) : (Action.done r).outcome = r := rfl

theorem step_eq_outcome (s : State) : step s = (nextAction s).outcome := by
  unfold step Action.outcome
  rfl

/-- R277: a refused state without a fault answers its refusal. -/
theorem step_of_refused {s : State} {q : Refusal} (hf : s.faults = []) (hq : s.refused = some q) :
    step s = .refused q := by
  simp [step_eq_outcome, nextAction, hf, hq]

/-- FW's turn comes to a next state: it runs an operation, refuses a record that spells none (the refusal is a mark of
the next state), or passes. -/
theorem fwAction_next (s : State) : ∃ t, (fwAction s).outcome = .next t := by
  unfold fwAction
  split
  case h_1 => exact ⟨s, rfl⟩
  case h_2 r _ =>
    split
    case h_1 i _ => exact exec_next i s
    case h_2 => exact ⟨_, rfl⟩

/-- A host step comes to a next state: a transaction, or a turn that passes (R106). -/
theorem hostAction_next (h : HostStep) (s : State) : ∃ t, (hostAction h s).outcome = .next t := by
  unfold hostAction
  split
  case h_1 i _ => exact exec_next i s
  case h_2 => exact ⟨s, rfl⟩

/-- R278: a step of a safe state, whosever turn it is, answers a next state. -/
theorem step_next_of_safe {s : State} (hs : Safe s) : ∃ t, step s = .next t := by
  obtain ⟨hf, hq⟩ := hs
  simp only [step_eq_outcome, nextAction, hf, hq]
  split
  case h_1 => exact fwAction_next s
  case h_2 => exact fwAction_next s.takeTurn
  case h_3 h _ _ => exact hostAction_next h s.takeTurn
  case h_4 => exact ⟨_, rfl⟩

/-! ## The launch -/

theorem faults_launch (cfg : Config) (init : List (Word × Byte)) (prog : List Record) :
    (State.launch cfg init prog).faults = [] := rfl

theorem refused_launch (cfg : Config) (init : List (Word × Byte)) (prog : List Record) :
    (State.launch cfg init prog).refused = if legalConfig cfg then none else some .config := rfl

theorem safe_launch {cfg : Config} (hc : legalConfig cfg = true) (init : List (Word × Byte)) (prog : List Record) :
    Safe (State.launch cfg init prog) :=
  ⟨faults_launch cfg init prog, by rw [refused_launch, if_pos hc]⟩

/-- R274: the first step after a launch answers `REF_CONFIG` exactly when the launch's check fails. -/
theorem step_launch_refused_iff (cfg : Config) (init : List (Word × Byte)) (prog : List Record) :
    step (State.launch cfg init prog) = .refused .config ↔ ¬ legalConfig cfg = true := by
  constructor
  · intro hstep hc
    obtain ⟨t, ht⟩ := step_next_of_safe (safe_launch hc init prog)
    rw [ht] at hstep
    cases hstep
  · intro hc
    exact step_of_refused (faults_launch cfg init prog) (by rw [refused_launch, if_neg hc])

/-- Settles O2: a launch sets the refusal exactly where `legalConfig` fails, and a first step without it answers a next
state. -/
theorem launchRefusesIllegalParameters : Obligations.LaunchRefusesIllegalParameters := by
  intro cfg init prog
  rw [← legalConfig_iff, step_launch_refused_iff]

end Sys2Proof.Machine
end

section
/-! PROOFS. The turns of a step (R278): what each turn does in a safe state, and everything a step that answers a next
state can have done. -/

namespace Sys2Proof.Machine

variable {s t : State} {rest : List Turn}

/-! ## Whose turn it is -/

theorem takeTurn_of_nil (hn : s.sched = []) : s.takeTurn = s := by
  cases s
  cases hn
  rfl

theorem nextAction_of_safe_fw (hs : Safe s) (hw : FwTurn s) : nextAction s = fwAction s.takeTurn := by
  obtain ⟨hf, hq⟩ := hs
  rcases hw with hn | ⟨rest, hc⟩
  · simp [nextAction, hf, hq, hn, takeTurn_of_nil hn]
  · simp [nextAction, hf, hq, hc]

theorem nextAction_of_safe_host {h : HostStep} (hs : Safe s) (hc : s.sched = .host h :: rest) :
    nextAction s = hostAction h s.takeTurn := by
  obtain ⟨hf, hq⟩ := hs
  simp [nextAction, hf, hq, hc]

theorem nextAction_of_safe_blockReset (hs : Safe s) (hc : s.sched = .blockReset :: rest) :
    nextAction s = .done (.next (blockReset s.takeTurn)) := by
  obtain ⟨hf, hq⟩ := hs
  simp [nextAction, hf, hq, hc]

/-- R277: only a safe state has a next state. -/
theorem safe_of_step_next (h : step s = .next t) : Safe s := by
  rw [step_eq_outcome] at h
  cases hf : s.faults with
  | cons r rs => simp [nextAction, hf] at h
  | nil =>
    cases hq : s.refused with
    | some q => simp [nextAction, hf, hq] at h
    | none => exact ⟨hf, hq⟩

/-! ## What a turn can do -/

/-- The next states of a step: a turn runs an operation, passes, is refused as a bad command, or resets the block. -/
inductive StepEffect (s : State) : State → Prop
  | ran (i : Instr) {t : State} (he : exec i s.takeTurn = .next t) : StepEffect s t
  | passed : StepEffect s s.takeTurn
  | badCommand : StepEffect s (s.takeTurn.setRefused .badCommand)
  | reset : StepEffect s (blockReset s.takeTurn)

theorem stepEffect_of_fwAction (h : (fwAction s.takeTurn).outcome = .next t) : StepEffect s t := by
  unfold fwAction at h
  split at h
  case h_1 => cases h; exact .passed
  case h_2 =>
    split at h
    case h_1 i _ => exact .ran i h
    case h_2 => cases h; exact .badCommand

theorem stepEffect_of_hostAction {hst : HostStep} (h : (hostAction hst s.takeTurn).outcome = .next t) :
    StepEffect s t := by
  unfold hostAction at h
  split at h
  case h_1 i _ => exact .ran i h
  case h_2 => cases h; exact .passed

/-- A step that answers a next state answers one of `StepEffect`. -/
theorem step_effect (h : step s = .next t) : StepEffect s t := by
  have hs := safe_of_step_next h
  rw [step_eq_outcome] at h
  match hc : s.sched with
  | [] => exact stepEffect_of_fwAction (nextAction_of_safe_fw hs (.inl hc) ▸ h)
  | .fw :: rest => exact stepEffect_of_fwAction (nextAction_of_safe_fw hs (.inr ⟨rest, hc⟩) ▸ h)
  | .host hst :: rest => exact stepEffect_of_hostAction (nextAction_of_safe_host hs hc ▸ h)
  | .blockReset :: rest =>
    rw [nextAction_of_safe_blockReset hs hc] at h
    cases h
    exact .reset

/-- Settles O4: on FW's turn the action is FW's, which runs the operation that the record at `pc` decodes to. -/
theorem stepRunsDecodedCommand : Obligations.StepRunsDecodedCommand := by
  intro s r i hs hw hr hd
  have hr' : s.takeTurn.prog[s.takeTurn.pc]? = some r := hr
  rw [step_eq_outcome, nextAction_of_safe_fw hs hw, fwAction, hr']
  simp only [hd]
  rfl

end Sys2Proof.Machine
end

section
/-! PROOFS. Reset (R51): the state after a launch, with the memory that MEM_INIT gives, and the state after a block
reset. -/

namespace Sys2Proof.Machine

/-! ## The contents of memory at power-on -/

theorem memOf_concat (init : List (Word × Byte)) (c : Word × Byte) :
    memOf (init ++ [c]) = (memOf init).write c.1.toNat c.2 := by
  simp [memOf]

/-- `b` is the value that the last element of `init` for address `a` gives (R8, R47). -/
def LastGiven (init : List (Word × Byte)) (a : Nat) (b : Byte) : Prop :=
  ∃ pre post, init = pre ++ (BitVec.ofNat 32 a, b) :: post ∧ a < 2 ^ 32 ∧ ∀ c ∈ post, c.1.toNat ≠ a

/-- What one more element of MEM_INIT does: it decides its own address, and no other. -/
theorem lastGiven_concat (init : List (Word × Byte)) (c : Word × Byte) (a : Nat) (b : Byte) :
    LastGiven (init ++ [c]) a b ↔ if a = c.1.toNat then c.2 = b else LastGiven init a b := by
  constructor
  · rintro ⟨pre, post, heq, hlt, hpost⟩
    rcases List.eq_nil_or_concat post with rfl | ⟨post, d, rfl⟩
    · obtain ⟨-, rfl⟩ := List.append_inj' heq rfl |>.imp_right List.singleton_inj.1
      rw [if_pos (by simpa using (Nat.mod_eq_of_lt hlt).symm)]
    · rw [List.concat_eq_append, ← List.cons_append, ← List.append_assoc] at heq
      obtain ⟨rfl, rfl⟩ := List.append_inj' heq rfl |>.imp_right List.singleton_inj.1
      rw [if_neg (hpost c (by simp)).symm]
      exact ⟨pre, post, rfl, hlt, fun d hd => hpost d (by simp [hd])⟩
  · split
    · rintro rfl
      subst_vars
      exact ⟨init, [], by simp, c.1.isLt, by simp⟩
    · rintro ⟨pre, post, rfl, hlt, hpost⟩
      refine ⟨pre, post ++ [c], by simp, hlt, fun d hd => ?_⟩
      rcases List.mem_append.1 hd with hd | hd
      · exact hpost d hd
      · rw [List.mem_singleton.1 hd]
        exact Ne.symm ‹_›

theorem read_memOf_iff (init : List (Word × Byte)) (a : Nat) (b : Byte) :
    (memOf init).read a = some b ↔ LastGiven init a b := by
  induction init using List.reverseRecOn with
  | nil => simp [memOf, Memory.read, Memory.unlisted, LastGiven]
  | append_singleton init c ih =>
    rw [memOf_concat, Memory.read_write, lastGiven_concat]
    split
    · exact Option.some_inj
    · exact ih

/-! ## The tables after a launch -/

section Launch

variable (cfg : Config) (init : List (Word × Byte)) (prog : List Record)

@[simp] theorem entry_launch (h : Handle) : (State.launch cfg init prog).entry h = BdtEntry.reset := by
  simp [State.entry, State.launch, State.reset]

@[simp] theorem parity_launch (c : Channel) : (State.launch cfg init prog).parity c = .even := by
  simp [State.parity, State.launch, State.reset]

@[simp] theorem bufToggle_launch (c : Channel) : (State.launch cfg init prog).bufToggle c = .even := by
  simp [State.bufToggle, State.launch, State.reset]

@[simp] theorem dataToggle_launch (c : Channel) : (State.launch cfg init prog).dataToggle c = .data0 := by
  simp [State.dataToggle, State.launch, State.reset]

end Launch

/-- Settles O1: the tables are those of the reset state, and memory is MEM_INIT's by induction on its list. -/
theorem launchGivesResetValues : Obligations.LaunchGivesResetValues := by
  intro cfg init prog hc
  obtain ⟨hf, hq⟩ := safe_launch hc init prog
  refine ⟨fun h => ?_, fun c => ?_, rfl, rfl, rfl, rfl, rfl, hf, hq, rfl, rfl, rfl, read_memOf_iff init⟩
  · rw [entry_launch]
    exact ⟨rfl, rfl, rfl, rfl, rfl⟩
  · exact ⟨parity_launch .., bufToggle_launch .., dataToggle_launch ..⟩

/-! ## The tables after a block reset -/

section BlockReset

variable (s : State)

@[simp] theorem entry_blockReset (h : Handle) : (blockReset s).entry h = (s.entry h).blockReset :=
  entry_mapTable s BdtEntry.blockReset h

theorem ownedByMcu_blockReset (e : BdtEntry) : OwnedByMcu e.blockReset := by
  simp [OwnedByMcu, BdtEntry.blockReset, BdtEntry.reset]

@[simp] theorem parity_blockReset (c : Channel) : (blockReset s).parity c = .even := by
  simp [State.parity, blockReset]

@[simp] theorem bufToggle_blockReset (c : Channel) : (blockReset s).bufToggle c = .even := by
  simp [State.bufToggle, blockReset]

@[simp] theorem dataToggle_blockReset (c : Channel) : (blockReset s).dataToggle c = .data0 := by
  simp [State.dataToggle, blockReset]

end BlockReset

/-- Settles O3: the step of that turn is the block reset of the state with the turn taken. -/
theorem blockResetInARun : Obligations.BlockResetInARun := by
  intro s rest hs hc
  refine ⟨blockReset s.takeTurn, ?_, fun h => ?_, fun c => ?_, ?_⟩
  · rw [step_eq_outcome, nextAction_of_safe_blockReset hs hc, Action.outcome_done]
  · rw [entry_blockReset]
    exact ⟨ownedByMcu_blockReset _, rfl, rfl, rfl, rfl, rfl⟩
  · exact ⟨parity_blockReset .., bufToggle_blockReset .., dataToggle_blockReset ..⟩
  · simp [blockReset, State.takeTurn, hc]

end Sys2Proof.Machine
end

section
/-! PROOFS. What an operation of FW and a transaction of the SIE can do to the logs, to `pc` and to one entry, said once
as consequences of `Effect`. -/

namespace Sys2Proof.Machine

variable {s t : State} {i : Instr} {h : Handle}

/-! ## The fields of a completed transaction -/

section Completed

variable (s : State) (tok : Tok) (ep : Ep) (payload : List Byte) (n : Half) (ev : BusEvent) (k : Nat)

@[simp] theorem cfg_completedState : (completedState s tok ep payload n ev k).cfg = s.cfg := by
  simp [completedState]

@[simp] theorem prog_completedState : (completedState s tok ep payload n ev k).prog = s.prog := by
  simp [completedState]

@[simp] theorem pc_completedState : (completedState s tok ep payload n ev k).pc = s.pc := by
  simp [completedState]

@[simp] theorem sched_completedState : (completedState s tok ep payload n ev k).sched = s.sched := by
  simp [completedState]

@[simp] theorem statQ_completedState :
    (completedState s tok ep payload n ev k).statQ = s.statQ ++ [statWord (sieHandle tok ep s)] := by
  simp [completedState]

@[simp] theorem fwBuf_completedState : (completedState s tok ep payload n ev k).fwBuf = s.fwBuf := by
  simp [completedState]

@[simp] theorem fwData_completedState : (completedState s tok ep payload n ev k).fwData = s.fwData := by
  simp [completedState]

@[simp] theorem pending_completedState : (completedState s tok ep payload n ev k).pending = s.pending := by
  simp [completedState]

@[simp] theorem mem_completedState : (completedState s tok ep payload n ev k).mem =
    s.mem.writeBytes (s.entry (sieHandle tok ep s)).addr.toNat payload := by
  simp [completedState]

@[simp] theorem outLog_completedState : (completedState s tok ep payload n ev k).outLog = s.outLog := by
  simp [completedState]

@[simp] theorem busTrace_completedState : (completedState s tok ep payload n ev k).busTrace = s.busTrace ++ [ev] := by
  simp [completedState]

@[simp] theorem entry_completedState (h : Handle) : (completedState s tok ep payload n ev k).entry h =
    if sieHandle tok ep s = h then handedBack (s.entry (sieHandle tok ep s)) tok n else s.entry h := by
  simp [completedState, entry_setEntry]

end Completed

/-! ## The operations of the host -/

/-- The operation is a transaction of the SIE (R213 to R215). -/
def fromHost : Instr → Bool
  | .sieSetup .. | .sieOut .. | .sieIn .. => true
  | _ => false

@[simp] theorem fromHost_sieInstr (tok : Tok) (ep : Ep) (pid : DataPid) (payload : List Byte) (ack lax : Bool) :
    fromHost (sieInstr tok ep pid payload ack lax) = true := by
  cases tok <;> rfl

theorem fromHost_iff :
    fromHost i = true ↔ ∃ tok ep pid payload ack lax, i = sieInstr tok ep pid payload ack lax := by
  constructor
  · intro hi
    cases i with
    | sieSetup ep pid payload lax => exact ⟨.setup, ep, pid, payload, false, lax, rfl⟩
    | sieOut ep pid payload => exact ⟨.out, ep, pid, payload, false, false, rfl⟩
    | sieIn ep ack => exact ⟨.inn, ep, .data0, [], ack, false, rfl⟩
    | _ => cases hi
  · rintro ⟨tok, ep, pid, payload, ack, lax, rfl⟩
    exact fromHost_sieInstr ..

theorem fromHost_of_returnsOnly (hi : returnsOnly i = true) : fromHost i = false := by
  cases i with
  | sieSetup | sieOut | sieIn => cases hi
  | _ => rfl

theorem fromHost_of_storeOf {a : Word} {bytes : List Byte} (hi : storeOf i = some (a, bytes)) :
    fromHost i = false := by
  rcases storeOf_cases hi with ⟨v, rfl⟩ | ⟨v, rfl⟩ | ⟨v, rfl⟩ <;> rfl

/-! ## A recorded mark ends the run -/

theorem not_safe_addFault (s : State) (r : FaultRecord) : ¬ Safe (s.addFault r) := by
  rintro ⟨hf, -⟩
  rw [faults_addFault] at hf
  split at hf
  · rename_i hr
    rw [hf] at hr
    cases hr
  · simp at hf

theorem not_safe_setRefused (s : State) (q : Refusal) : ¬ Safe (s.setRefused q) := by
  rintro ⟨-, hq⟩
  rw [refused_setRefused] at hq
  split at hq <;> cases hq

/-! ## Logs and `pc` (R31, R32, R49) -/

/-- The list grew by at most one element. -/
def GrewByAtMostOne {α : Type} (l l' : List α) : Prop := ∃ k, l' = l ++ k ∧ k.length ≤ 1

theorem GrewByAtMostOne.of_eq {α : Type} {l l' : List α} (h : l' = l) : GrewByAtMostOne l l' :=
  ⟨[], by simp [h], by simp⟩

theorem GrewByAtMostOne.concat {α : Type} (l : List α) (a : α) : GrewByAtMostOne l (l ++ [a]) :=
  ⟨[a], rfl, by simp⟩

/-- A transaction writes the bus trace and neither `pc` nor the result log. -/
theorem Effect.logs_of_fromHost (he : Effect s i t) (hi : fromHost i = true) :
    t.pc = s.pc ∧ t.outLog = s.outLog ∧ GrewByAtMostOne s.busTrace t.busTrace := by
  cases he with
  | faulted | turnedAway => exact ⟨rfl, rfl, .of_eq rfl⟩
  | answered _ _ _ _ _ _ ev => exact ⟨rfl, rfl, .concat _ ev⟩
  | completed _ _ _ _ _ _ _ _ ev =>
    rw [pc_completedState, outLog_completedState, busTrace_completedState]
    exact ⟨rfl, rfl, .concat _ ev⟩
  | returned _ hr => rw [fromHost_of_returnsOnly hr] at hi; cases hi
  | stored _ _ _ hs => rw [fromHost_of_storeOf hs] at hi; cases hi
  | _ => cases hi

/-- An operation of FW leaves the bus trace; it advances `pc`, or records a mark and keeps `pc`. -/
theorem Effect.logs_of_not_fromHost (he : Effect s i t) (hi : fromHost i = false) :
    (t.pc = s.pc + 1 ∨ t.pc = s.pc ∧ ¬ Safe t) ∧ GrewByAtMostOne s.outLog t.outLog ∧ t.busTrace = s.busTrace := by
  cases he with
  | faulted _ r => exact ⟨.inr ⟨rfl, not_safe_addFault s r⟩, .of_eq rfl, rfl⟩
  | turnedAway _ q => exact ⟨.inr ⟨rfl, not_safe_setRefused s q⟩, .of_eq rfl, rfl⟩
  | returned _ _ v | readCtrl _ _ v => exact ⟨.inl rfl, .concat _ v, rfl⟩
  | popped b => exact ⟨.inl rfl, .concat _ (Value.u8 b), rfl⟩
  | answered | completed => rw [fromHost_sieInstr] at hi; cases hi
  | _ => exact ⟨.inl rfl, .of_eq rfl, rfl⟩

/-- Settles O11: a transaction grows the bus trace alone, an operation of FW the result log alone. -/
theorem logsGrowAndPcAdvances : Obligations.LogsGrowAndPcAdvances := by
  intro i s t hx
  have he := exec_effect hx
  cases hi : fromHost i with
  | true =>
    obtain ⟨hpc, hout, hbus⟩ := he.logs_of_fromHost hi
    obtain ⟨tok, ep, pid, payload, ack, lax, rfl⟩ := fromHost_iff.1 hi
    exact ⟨.inl hpc, GrewByAtMostOne.of_eq hout, hbus, fun _ _ _ _ _ _ _ => ⟨hpc, hout⟩,
      fun hne => absurd rfl (hne tok ep pid payload ack lax)⟩
  | false =>
    obtain ⟨hpc, hout, hbus⟩ := he.logs_of_not_fromHost hi
    refine ⟨hpc.symm.imp_left And.left, hout, GrewByAtMostOne.of_eq hbus, ?_, fun _ => ⟨hbus, fun _ hsafe => ?_⟩⟩
    · rintro tok ep pid payload ack lax rfl
      rw [fromHost_sieInstr] at hi
      cases hi
    · exact hpc.resolve_right fun hk => hk.2 hsafe

/-! ## What an operation can do to one entry -/

/-- The entry at `h` after operation `i`, which goes from `s` to `t`. -/
inductive EntryEffect (s t : State) (h : Handle) : Instr → BdtEntry → Prop
  | kept (i : Instr) : EntryEffect s t h i (s.entry h)
  | barrier : EntryEffect s t h .barrier (s.entry h).afterBarrier
  | initOther (h' : Handle) (ctrl : Byte) (bc : Half) (addr : Word) :
      EntryEffect s t h (.bdtInit h' ctrl bc addr) (s.entry h).afterBarrier
  | initialised (ctrl : Byte) (bc : Half) (addr : Word) (hm : MayAccess s h) :
      EntryEffect s t h (.bdtInit h ctrl bc addr)
        { s.entry h with ctrl := ctrl, ctrlW := true, bc := bc, bcW := true, addr := addr, addrW := true }
  | readCtrl : EntryEffect s t h (.bdtReadCtrl h) (s.entry h).afterReadCtrl
  | wroteBc (bc : Half) (hm : MayAccess s h) :
      EntryEffect s t h (.bdtSetBc h bc) { s.entry h with bc := bc, bcW := true }
  | wroteAddr (addr : Word) (hm : MayAccess s h) :
      EntryEffect s t h (.bdtSetAddr h addr) { s.entry h with addr := addr, addrW := true }
  | wroteCtrl (ctrl : Byte) (hm : MayAccess s h) :
      EntryEffect s t h (.bdtSetCtrl h ctrl) { s.entry h with ctrl := ctrl, ctrlW := true }
  | handedBack (tok : Tok) (ep : Ep) (pid : DataPid) (payload : List Byte) (ack lax : Bool) (n : Half)
      (hs : Selects s tok ep h) (ho : OwnedBySie (s.entry h)) (hq : t.statQ = s.statQ ++ [statWord h]) :
      EntryEffect s t h (sieInstr tok ep pid payload ack lax) (handedBack (s.entry h) tok n)

/-- Where entry `h'` is written and every other entry is kept, it is enough to look at `h'`. -/
theorem EntryEffect.of_setEntry {h' : Handle} {e : BdtEntry} (ht : t.entry h = (s.setEntry h' e).entry h)
    (he : EntryEffect s t h' i e) : EntryEffect s t h i (t.entry h) := by
  rw [ht, entry_setEntry]
  split
  · subst_vars; exact he
  · exact .kept i

/-- The entry after an operation is one of `EntryEffect`. -/
theorem Effect.entry (he : Effect s i t) (h : Handle) : EntryEffect s t h i (t.entry h) := by
  cases he with
  | readCtrl h' => exact .of_setEntry rfl .readCtrl
  | wroteBc h' bc hm => exact .of_setEntry rfl (.wroteBc bc hm)
  | wroteAddr h' addr hm => exact .of_setEntry rfl (.wroteAddr addr hm)
  | wroteCtrl h' ctrl p hm => exact .of_setEntry rfl (.wroteCtrl ctrl hm)
  | initialised h' ctrl bc addr p hm =>
    rw [entry_advance, entry_setPending, entry_setEntry, entry_barrierEffect]
    split
    · subst_vars; exact .initialised ctrl bc addr hm
    · exact .initOther h' ctrl bc addr
  | barrier =>
    rw [entry_advance, entry_barrierEffect]
    exact .barrier
  | completed tok ep pid payload ack lax bytes n ev k hc =>
    refine .of_setEntry ((entry_completedState ..).trans (entry_setEntry ..).symm) ?_
    exact .handedBack tok ep pid payload ack lax n ((selects_iff ..).2 rfl) hc.sieOwned (statQ_completedState ..)
  | _ => exact .kept _

theorem entryEffect_of_exec (hx : exec i s = .next t) (h : Handle) : EntryEffect s t h i (t.entry h) :=
  (exec_effect hx).entry h

theorem ownedByMcu_handedBack (e : BdtEntry) (tok : Tok) (n : Half) : OwnedByMcu (handedBack e tok n) := by
  simp [OwnedByMcu, handedBack, completedCtrl]

theorem ownedBySie_iff_of_ctrl {e e' : BdtEntry} (hc : e'.ctrl = e.ctrl) : OwnedBySie e' ↔ OwnedBySie e := by
  rw [OwnedBySie, OwnedBySie, hc]

/-! ## Ownership (R39, R152) -/

/-- Only a control byte with `own` set, written by FW, turns an entry SIE-owned. -/
theorem EntryEffect.release {e : BdtEntry} (he : EntryEffect s t h i e) (hm : OwnedByMcu (s.entry h))
    (ho : OwnedBySie e) :
    ∃ ctrl : Byte, ctrl[7] = true ∧ (i = .bdtSetCtrl h ctrl ∨ ∃ bc addr, i = .bdtInit h ctrl bc addr) := by
  have hn := (not_sie_iff _).2 hm
  cases he with
  | initialised ctrl bc addr => exact ⟨ctrl, ho, .inr ⟨bc, addr, rfl⟩⟩
  | wroteCtrl ctrl => exact ⟨ctrl, ho, .inl rfl⟩
  | handedBack => exact absurd ho ((not_sie_iff _).2 (ownedByMcu_handedBack ..))
  | barrier | initOther => exact absurd ((ownedBySie_iff_of_ctrl (ctrl_afterBarrier _)).1 ho) hn
  | readCtrl => exact absurd ((ownedBySie_iff_of_ctrl (ctrl_afterReadCtrl _)).1 ho) hn
  | kept | wroteBc | wroteAddr => exact absurd ho hn

/-- Only a completion on the entry turns it MCU-owned. -/
theorem EntryEffect.handback {e : BdtEntry} (he : EntryEffect s t h i e) (ho : OwnedBySie (s.entry h))
    (hm : OwnedByMcu e) :
    (∃ tok ep pid payload ack lax, i = sieInstr tok ep pid payload ack lax ∧ Selects s tok ep h) ∧
      e.sync = .completed ∧ t.statQ = s.statQ ++ [BitVec.ofNat 8 (statNumber h)] := by
  have hn := (not_sie_iff _).2 hm
  cases he with
  | handedBack tok ep pid payload ack lax n hs _ hq =>
    exact ⟨⟨tok, ep, pid, payload, ack, lax, rfl, hs⟩, rfl, statWord_eq h ▸ hq⟩
  | barrier | initOther => exact absurd ((ownedBySie_iff_of_ctrl (ctrl_afterBarrier _)).2 ho) hn
  | readCtrl => exact absurd ((ownedBySie_iff_of_ctrl (ctrl_afterReadCtrl _)).2 ho) hn
  | kept => exact absurd ho hn
  | initialised _ _ _ ha | wroteBc _ ha | wroteAddr _ ha | wroteCtrl _ ha =>
    exact absurd ho ((not_sie_iff _).2 ha.mcuOwned)

/-- Settles O55, entry by entry. -/
theorem ownershipChangesHands : Obligations.OwnershipChangesHands := by
  intro i s t h hx
  have he := entryEffect_of_exec hx h
  exact ⟨he.release, he.handback⟩

/-! ## Synchronisation (R40, R254) -/

theorem observed_of_afterBarrier {e : BdtEntry} (hs : e.sync ≠ .acquired) (ha : e.afterBarrier.sync = .acquired) :
    e.sync = .observed := by
  by_contra ho
  rw [sync_afterBarrier, if_neg ho] at ha
  exact hs ha

theorem handback_of_afterReadCtrl {e : BdtEntry} (hs : e.sync ≠ .observed) (ho : e.afterReadCtrl.sync = .observed) :
    OwnedByMcu e ∧ e.sync = .completed := by
  by_contra hn
  rw [afterReadCtrl_other hn] at ho
  exact hs ho

theorem sync_afterReadCtrl_ne_acquired {e : BdtEntry} (hs : e.sync ≠ .acquired) :
    e.afterReadCtrl.sync ≠ .acquired := by
  by_cases hb : OwnedByMcu e ∧ e.sync = .completed
  · rw [afterReadCtrl_handback hb]; simp
  · rwa [afterReadCtrl_other hb]

/-- Only a barrier, alone or in BDT_INIT, acquires an entry, and only an observed one. -/
theorem EntryEffect.acquire {e : BdtEntry} (he : EntryEffect s t h i e) (hs : (s.entry h).sync ≠ .acquired)
    (ha : e.sync = .acquired) :
    (s.entry h).sync = .observed ∧ (i = .barrier ∨ ∃ h' ctrl bc addr, i = .bdtInit h' ctrl bc addr) := by
  cases he with
  | barrier => exact ⟨observed_of_afterBarrier hs ha, .inl rfl⟩
  | initOther h' ctrl bc addr => exact ⟨observed_of_afterBarrier hs ha, .inr ⟨h', ctrl, bc, addr, rfl⟩⟩
  | readCtrl => exact absurd ha (sync_afterReadCtrl_ne_acquired hs)
  | handedBack => cases ha
  | kept => exact absurd ha hs
  | initialised _ _ _ hm | wroteBc _ hm | wroteAddr _ hm | wroteCtrl _ hm => exact absurd hm.isAcquired hs

/-- Only a BDT_READ_CTRL of a completed entry that is MCU-owned observes it. -/
theorem EntryEffect.observe {e : BdtEntry} (he : EntryEffect s t h i e) (hs : (s.entry h).sync ≠ .observed)
    (ho : e.sync = .observed) :
    (s.entry h).sync = .completed ∧ OwnedByMcu (s.entry h) ∧ i = .bdtReadCtrl h := by
  cases he with
  | readCtrl =>
    obtain ⟨hm, hc⟩ := handback_of_afterReadCtrl hs ho
    exact ⟨hc, hm, rfl⟩
  | barrier | initOther => rw [sync_afterBarrier, if_neg hs] at ho; exact absurd ho hs
  | handedBack => cases ho
  | kept | initialised | wroteBc | wroteAddr | wroteCtrl => exact absurd ho hs

/-- Settles O58, entry by entry. -/
theorem acquireNeedsObservationAndBarrier : Obligations.AcquireNeedsObservationAndBarrier := by
  intro i s t h hx
  have he := entryEffect_of_exec hx h
  exact ⟨he.acquire, he.observe⟩

end Sys2Proof.Machine
end

section
/-! PROOFS. The writers of each piece of state (R35, R37, R42 to R47, R251): one lemma a piece, over `Effect`. -/

namespace Sys2Proof.Machine

variable {s t : State} {i : Instr}

/-- The parameters, FW's list and the schedule have no writer (log entries 2 and 4). -/
theorem Effect.fixed (he : Effect s i t) : t.cfg = s.cfg ∧ t.prog = s.prog ∧ t.sched = s.sched := by
  cases he with
  | completed => exact ⟨cfg_completedState .., prog_completedState .., sched_completedState ..⟩
  | _ => exact ⟨rfl, rfl, rfl⟩

theorem Effect.fwBuf_writer (he : Effect s i t) (hne : t.fwBuf ≠ s.fwBuf) :
    ∃ ep dir, i = .flipBuf ep dir ∨ i = .clearToggles ep dir := by
  cases he with
  | flippedBuf ep dir => exact ⟨ep, dir, .inl rfl⟩
  | cleared ep dir => exact ⟨ep, dir, .inr rfl⟩
  | completed => exact absurd (fwBuf_completedState ..) hne
  | _ => exact absurd rfl hne

theorem Effect.fwData_writer (he : Effect s i t) (hne : t.fwData ≠ s.fwData) :
    ∃ ep dir, i = .flipData ep dir ∨ i = .clearToggles ep dir := by
  cases he with
  | flippedData ep dir => exact ⟨ep, dir, .inl rfl⟩
  | cleared ep dir => exact ⟨ep, dir, .inr rfl⟩
  | completed => exact absurd (fwData_completedState ..) hne
  | _ => exact absurd rfl hne

theorem Effect.sieOdd_writer (he : Effect s i t) (hne : t.sieOdd ≠ s.sieOdd) :
    i = .oddReset ∨ ∃ tok ep pid payload ack lax, i = sieInstr tok ep pid payload ack lax := by
  cases he with
  | aligned => exact .inl rfl
  | completed tok ep pid payload ack lax => exact .inr ⟨tok, ep, pid, payload, ack, lax, rfl⟩
  | _ => exact absurd rfl hne

theorem Effect.statQ_writer (he : Effect s i t) (hne : t.statQ ≠ s.statQ) :
    i = .statPop ∨ ∃ tok ep pid payload ack lax, i = sieInstr tok ep pid payload ack lax := by
  cases he with
  | popped => exact .inl rfl
  | completed tok ep pid payload ack lax => exact .inr ⟨tok, ep, pid, payload, ack, lax, rfl⟩
  | _ => exact absurd rfl hne

/-- An IN that completes writes no byte of memory (R229). -/
theorem mem_completedState_inn {ep : Ep} {payload : List Byte} {n : Half} (hc : Completes s .inn ep payload n)
    (ev : BusEvent) (k : Nat) : (completedState s .inn ep payload n ev k).mem = s.mem := by
  obtain ⟨-, rfl⟩ := hc.sent rfl
  rw [mem_completedState, Memory.writeBytes]

theorem Effect.mem_writer (he : Effect s i t) (hne : t.mem ≠ s.mem) :
    (∃ v addr, i = .memStore1 v addr) ∨ (∃ v addr, i = .memStore2 v addr) ∨ (∃ v addr, i = .memStore4 v addr) ∨
      (∃ ep pid payload lax, i = .sieSetup ep pid payload lax) ∨ (∃ ep pid payload, i = .sieOut ep pid payload) := by
  cases he with
  | stored _ a bytes hi =>
    rcases storeOf_cases hi with ⟨v, rfl⟩ | ⟨v, rfl⟩ | ⟨v, rfl⟩
    · exact .inl ⟨v, a, rfl⟩
    · exact .inr (.inl ⟨v, a, rfl⟩)
    · exact .inr (.inr (.inl ⟨v, a, rfl⟩))
  | completed tok ep pid payload ack lax bytes n ev k hc =>
    cases tok with
    | setup => exact .inr (.inr (.inr (.inl ⟨ep, pid, payload, lax, rfl⟩)))
    | out => exact .inr (.inr (.inr (.inr ⟨ep, pid, payload, rfl⟩)))
    | inn => exact absurd (mem_completedState_inn hc ev k) hne
  | _ => exact absurd rfl hne

/-- R251: `pending` is cleared by a barrier, alone or in BDT_INIT. -/
theorem Effect.pending_clearer (he : Effect s i t) (hs : s.pending = true) (ht : t.pending = false) :
    i = .barrier ∨ ∃ h ctrl bc addr, i = .bdtInit h ctrl bc addr := by
  cases he with
  | barrier => exact .inl rfl
  | initialised h ctrl bc addr => exact .inr ⟨h, ctrl, bc, addr, rfl⟩
  | wroteCtrl _ _ p _ hp => exact absurd ((hp hs).symm.trans ht) (by simp)
  | wroteBc | wroteAddr | stored => cases ht
  | completed => rw [pending_completedState, hs] at ht; cases ht
  | _ => exact absurd (hs.symm.trans ht) (by simp)

theorem EntryEffect.addr_writer {h : Handle} {e : BdtEntry} (he : EntryEffect s t h i e)
    (hne : e.addr ≠ (s.entry h).addr) :
    (∃ ctrl bc addr, i = .bdtInit h ctrl bc addr) ∨ ∃ addr, i = .bdtSetAddr h addr := by
  cases he with
  | initialised ctrl bc addr => exact .inl ⟨ctrl, bc, addr, rfl⟩
  | wroteAddr addr => exact .inr ⟨addr, rfl⟩
  | barrier | initOther => exact absurd (addr_afterBarrier _) hne
  | readCtrl => exact absurd (addr_afterReadCtrl _) hne
  | kept | wroteBc | wroteCtrl | handedBack => exact absurd rfl hne

/-- R35: the reserved byte has no writer. -/
theorem EntryEffect.rsvd {h : Handle} {e : BdtEntry} (he : EntryEffect s t h i e) : e.rsvd = (s.entry h).rsvd := by
  cases he with
  | barrier | initOther => exact rsvd_afterBarrier _
  | readCtrl => exact rsvd_afterReadCtrl _
  | _ => rfl

/-- Settles O57: the writers of each piece of state, as the lemmas above say them. -/
theorem onlyTheirWritersWrite : Obligations.OnlyTheirWritersWrite := by
  intro i s t hx
  have he := exec_effect hx
  obtain ⟨hcfg, hprog, hsched⟩ := he.fixed
  exact ⟨hcfg, hprog, hsched, he.fwBuf_writer, he.fwData_writer, he.sieOdd_writer, he.statQ_writer, he.mem_writer,
    he.pending_clearer, fun h => (he.entry h).addr_writer, fun h => (he.entry h).rsvd⟩

end Sys2Proof.Machine
end

section
/-! PROOFS. The invariant of the block: it holds after reset, every update that an operation makes keeps it under a
condition on what is written, and so every step keeps it. -/

namespace Sys2Proof

open Sys2Proof.Machine

variable {s t : State}

/-! ## What the invariant asks of one entry -/

/-- The two clauses of `Inv` about an entry: `released` and `handedBack`. -/
structure EntryOk (e : BdtEntry) : Prop where
  released   : OwnedBySie e → e.ctrlW = true ∧ e.sync = .acquired
  handedBack : e.sync ≠ .acquired → e.ctrlW = true ∧ e.bcW = true ∧ e.addrW = true

theorem Inv.entryOk (hi : Inv s) (h : Handle) : EntryOk (s.entry h) := ⟨hi.released h, hi.handedBack h⟩

/-- A write to an acquired entry may change everything if a release leaves the control byte written. -/
theorem EntryOk.of_acquired {e : BdtEntry} (ha : e.sync = .acquired) (hw : OwnedBySie e → e.ctrlW = true) :
    EntryOk e :=
  ⟨fun ho => ⟨hw ho, ha⟩, fun hn => absurd ha hn⟩

theorem EntryOk.of_mcu {e : BdtEntry} (hm : OwnedByMcu e)
    (hw : e.sync ≠ .acquired → e.ctrlW = true ∧ e.bcW = true ∧ e.addrW = true) : EntryOk e :=
  ⟨fun ho => absurd ho ((not_sie_iff e).2 hm), hw⟩

theorem EntryOk.afterBarrier {e : BdtEntry} (he : EntryOk e) : EntryOk e.afterBarrier := by
  by_cases ho : e.sync = .observed
  · have hw := he.handedBack (by simp [ho])
    exact .of_acquired (by rw [sync_afterBarrier, if_pos ho]) fun _ => (ctrlW_afterBarrier e).trans hw.1
  · rwa [BdtEntry.afterBarrier, if_neg ho]

theorem EntryOk.afterReadCtrl {e : BdtEntry} (he : EntryOk e) : EntryOk e.afterReadCtrl := by
  by_cases hb : OwnedByMcu e ∧ e.sync = .completed
  · rw [afterReadCtrl_handback hb]
    exact .of_mcu hb.1 fun _ => he.handedBack (by simp [hb.2])
  · rwa [afterReadCtrl_other hb]

theorem EntryOk.handback {e : BdtEntry} (he : EntryOk e) (ho : OwnedBySie e) (ha : e.addrW = true) (tok : Tok)
    (n : Half) : EntryOk (Machine.handedBack e tok n) :=
  .of_mcu (ownedByMcu_handedBack e tok n) fun _ => ⟨(he.released ho).1, rfl, ha⟩

theorem entryOk_reset : EntryOk BdtEntry.reset := .of_acquired rfl (by simp [OwnedBySie, BdtEntry.reset])

theorem entryOk_blockReset (e : BdtEntry) : EntryOk e.blockReset :=
  .of_mcu (ownedByMcu_blockReset e) fun hn => absurd rfl hn

/-! ## Updates that keep the invariant -/

/-- The invariant speaks of the parameters, memory, the queue, the entries and the marks alone. -/
theorem Inv.of_eq (hi : Inv s) (hcfg : t.cfg = s.cfg) (hmem : t.mem = s.mem) (hq : t.statQ = s.statQ)
    (hb : t.bdt = s.bdt) (hf : t.faults = s.faults) (hr : t.refused = s.refused) : Inv t := by
  have hep (ep : Ep) : HasEp t ep = HasEp s ep := by rw [HasEp, HasEp, hcfg]
  have hen (h : Handle) : t.entry h = s.entry h := by rw [State.entry, State.entry, hb]
  exact ⟨hmem ▸ hi.memCanonical, hq ▸ hcfg ▸ hi.queueFits, fun b hb => hep _ ▸ hi.postedWords b (hq ▸ hb),
    fun h => hen h ▸ hi.released h, fun h => hen h ▸ hi.handedBack h, hf ▸ hi.faultSet, hr ▸ hi.refusalCode⟩

theorem Inv.advance (hi : Inv s) : Inv s.advance := hi.of_eq rfl rfl rfl rfl rfl rfl

theorem Inv.out (hi : Inv s) (v : Value) : Inv (s.out v) := hi.of_eq rfl rfl rfl rfl rfl rfl

theorem Inv.bus (hi : Inv s) (ev : BusEvent) : Inv (s.bus ev) := hi.of_eq rfl rfl rfl rfl rfl rfl

theorem Inv.useDraws (hi : Inv s) (n : Nat) : Inv (s.useDraws n) := hi.of_eq rfl rfl rfl rfl rfl rfl

theorem Inv.takeTurn (hi : Inv s) : Inv s.takeTurn := hi.of_eq rfl rfl rfl rfl rfl rfl

theorem Inv.setPending (hi : Inv s) (p : Bool) : Inv (s.setPending p) := hi.of_eq rfl rfl rfl rfl rfl rfl

theorem Inv.setParity (hi : Inv s) (c : Channel) (p : Par) : Inv (s.setParity c p) :=
  hi.of_eq rfl rfl rfl rfl rfl rfl

theorem Inv.setBufToggle (hi : Inv s) (c : Channel) (b : BufferToggle) : Inv (s.setBufToggle c b) :=
  hi.of_eq rfl rfl rfl rfl rfl rfl

theorem Inv.setDataToggle (hi : Inv s) (c : Channel) (d : DataToggle) : Inv (s.setDataToggle c d) :=
  hi.of_eq rfl rfl rfl rfl rfl rfl

theorem Inv.setMem (hi : Inv s) {m : Memory} (hm : m.wf) : Inv (s.setMem m) := { hi with memCanonical := hm }

/-- Writing a table of entries keeps the invariant where each of them is as `EntryOk` asks. -/
theorem Inv.setBdt (hi : Inv s) {v : Vector BdtEntry 64}
    (hv : ∀ h, EntryOk (({ s with bdt := v } : State).entry h)) :
    Inv { s with bdt := v } :=
  { hi with released := fun h => (hv h).released, handedBack := fun h => (hv h).handedBack }

theorem Inv.setEntry (hi : Inv s) (h : Handle) {e : BdtEntry} (he : EntryOk e) : Inv (s.setEntry h e) := by
  refine hi.setBdt fun h' => ?_
  change EntryOk ((s.setEntry h e).entry h')
  rw [entry_setEntry]
  split
  · exact he
  · exact hi.entryOk h'

theorem Inv.barrierEffect (hi : Inv s) : Inv s.barrierEffect := by
  refine (hi.setPending false).setBdt (v := mapTable BdtEntry.afterBarrier s.bdt) fun h => ?_
  change EntryOk (s.barrierEffect.entry h)
  rw [entry_barrierEffect]
  exact (hi.entryOk h).afterBarrier

/-- The queue may become any list of posted words that fits. -/
theorem Inv.setStatQ (hi : Inv s) {q : List Byte} (hl : q.length ≤ s.cfg.statDepth)
    (hw : ∀ b ∈ q, b.toNat % 4 = 0 ∧ HasEp s (statHandle b).ep) : Inv (s.setStatQ q) :=
  { hi with queueFits := hl, postedWords := hw }

theorem Inv.popStat (hi : Inv s) {b : Byte} {rest : List Byte} (hq : s.statQ = b :: rest) :
    Inv (s.setStatQ rest) := by
  refine hi.setStatQ ?_ fun c hc => hi.postedWords c (hq ▸ List.mem_cons_of_mem b hc)
  have hl := hi.queueFits
  rw [hq, List.length_cons] at hl
  omega

theorem statWord_mod_four (h : Handle) : (statWord h).toNat % 4 = 0 := by
  rw [statWord_eq, BitVec.toNat_ofNat, statNumber]
  split <;> split <;> omega

theorem Inv.pushStat (hi : Inv s) {h : Handle} (hr : s.statQ.length ≠ s.cfg.statDepth) (hep : HasEp s h.ep) :
    Inv (s.pushStat (statWord h)) := by
  refine hi.setStatQ (q := s.statQ ++ [statWord h]) ?_ fun b hb => ?_
  · rw [List.length_append, List.length_singleton]
    exact Nat.lt_of_le_of_ne hi.queueFits hr
  · rcases List.mem_append.1 hb with hb | hb
    · exact hi.postedWords b hb
    · rw [List.mem_singleton.1 hb, statHandle_statWord]
      exact ⟨statWord_mod_four h, hep⟩

theorem Inv.addFault (hi : Inv s) (r : FaultRecord) : Inv (s.addFault r) := by
  refine { hi with faultSet := ?_ }
  rw [faults_addFault]
  split
  · exact hi.faultSet
  · rw [← List.concat_eq_append]
    exact hi.faultSet.concat ‹_›

theorem Inv.setRefused (hi : Inv s) {q : Refusal} (hq : q ∈ refusalCodes) : Inv (s.setRefused q) := by
  refine { hi with refusalCode := fun q' hq' => ?_ }
  rw [refused_setRefused] at hq'
  split at hq'
  case h_1 q₀ h₀ => exact hi.refusalCode q' (h₀.trans hq')
  case h_2 => exact Option.some_inj.1 hq' ▸ hq

theorem Inv.blockReset (hi : Inv s) : Inv (blockReset s) where
  memCanonical := hi.memCanonical
  queueFits := Nat.zero_le _
  postedWords := fun b hb => by cases hb
  released := fun h => entry_blockReset s h ▸ (entryOk_blockReset _).released
  handedBack := fun h => entry_blockReset s h ▸ (entryOk_blockReset _).handedBack
  faultSet := hi.faultSet
  refusalCode := hi.refusalCode

/-! ## Every operation and every step -/

/-- A completed transaction: memory stays canonical by the range check of R219, and the queue has room by R218. -/
theorem Inv.completedState (hi : Inv s) {tok : Tok} {ep : Ep} {payload : List Byte} {n : Half}
    (hc : Completes s tok ep payload n) (ev : BusEvent) (k : Nat) :
    Inv (completedState s tok ep payload n ev k) := by
  have hm : (s.mem.writeBytes (s.entry (sieHandle tok ep s)).addr.toNat payload).wf := by
    rcases hc.inSpace with rfl | hf
    · exact hi.memCanonical
    · exact Memory.writeBytes_wf hi.memCanonical _ _ hf
  have he := (hi.entryOk (sieHandle tok ep s)).handback hc.sieOwned hc.addrWritten tok n
  refine (((((hi.setMem hm).bus ev).useDraws k).setEntry _ he).setParity _ _).pushStat ?_ ?_
  · simpa using hc.room
  · exact hc.answered.1

theorem Inv.effect {i : Instr} (hi : Inv s) (he : Effect s i t) : Inv t := by
  cases he with
  | faulted _ r => exact hi.addFault r
  | turnedAway _ q hq => exact hi.setRefused hq
  | returned _ _ v k => exact ((hi.out v).useDraws k).advance
  | popped b rest hq => exact ((hi.out _).popStat hq).advance
  | readCtrl h _ v k => exact (((hi.setEntry h (hi.entryOk h).afterReadCtrl).out v).useDraws k).advance
  | wroteBc h bc hm | wroteAddr h addr hm =>
    refine ((hi.setEntry h ?_).setPending true).advance
    exact .of_acquired hm.isAcquired fun ho => (hi.released h ho).1
  | wroteCtrl h ctrl p hm =>
    refine ((hi.setEntry h ?_).setPending p).advance
    exact .of_acquired hm.isAcquired fun _ => rfl
  | initialised h ctrl bc addr p hm =>
    refine ((hi.barrierEffect.setEntry h ?_).setPending p).advance
    exact .of_acquired hm.isAcquired fun _ => rfl
  | flippedBuf => exact (hi.setBufToggle _ _).advance
  | flippedData => exact (hi.setDataToggle _ _).advance
  | cleared => exact ((hi.setDataToggle _ _).setBufToggle _ _).advance
  | aligned => exact hi.of_eq rfl rfl rfl rfl rfl rfl
  | barrier => exact hi.barrierEffect.advance
  | stored _ a bytes _ hf => exact ((hi.setMem (Memory.writeBytes_wf hi.memCanonical _ _ hf)).setPending true).advance
  | answered _ _ _ _ _ _ ev k => exact (hi.bus ev).useDraws k
  | completed _ _ _ _ _ _ _ _ ev k hc => exact hi.completedState hc ev k

/-- Settles O60: the turn is taken, and what it brings keeps the invariant. -/
theorem stepKeepsInvariant : Obligations.StepKeepsInvariant := by
  intro s t hi hstep
  have hturn := hi.takeTurn
  cases step_effect hstep with
  | ran i hx => exact hturn.effect (exec_effect hx)
  | passed => exact hturn
  | badCommand => exact hturn.setRefused (by simp [refusalCodes])
  | reset => exact hturn.blockReset

/-- Settles O59: memory, queue and marks are empty, and every entry is the reset entry. -/
theorem invariantAtReset : Obligations.InvariantAtReset := by
  have hen (h : Handle) : State.reset.entry h = BdtEntry.reset := by simp [State.entry, State.reset]
  exact {
    memCanonical := reset_mem_wf
    queueFits := Nat.zero_le _
    postedWords := fun b hb => by cases hb
    released := fun h => hen h ▸ entryOk_reset.released
    handedBack := fun h => hen h ▸ entryOk_reset.handedBack
    faultSet := List.nodup_nil
    refusalCode := fun q hq => by cases hq }

end Sys2Proof
end

section
/-! PROOFS. An entry as it stands in the arena (R62, R95): its bytes as digits to base 256. -/

namespace Sys2Proof.Machine

theorem ofNat_byte_mod (n : Nat) : BitVec.ofNat 8 (n % 256) = BitVec.ofNat 8 n :=
  BitVec.eq_of_toNat_eq (by simp)

/-- The bytes of a word are its digits to base 256, lowest first (R15, R60). -/
theorem bytesOfWord_eq_digits (w : Word) :
    bytesOfWord w = [BitVec.ofNat 8 w.toNat, BitVec.ofNat 8 (w.toNat / 256), BitVec.ofNat 8 (w.toNat / 65536),
      BitVec.ofNat 8 (w.toNat / 16777216)] := by
  simp [bytesOfWord, extract_eq_ofNat]

/-- Settles O33: bytes 2 and 3 are the digits of `bc`, bytes 4 to 7 those of `addr`, and a digit cut to eight bits is the
digit modulo 256. -/
theorem entryImageIsLittleEndian : Obligations.EntryImageIsLittleEndian := by
  intro e
  simp only [entryImage, bytesOfWord_eq_digits, extract_eq_ofNat, ofNat_byte_mod]
  simp

end Sys2Proof.Machine
end

section
/-! PROOFS. Encode and decode agree (R101 to R104): one case for each form of record, and one for the token. -/

namespace Sys2Proof

open Sys2Proof.Machine

/-! ## Operand words of several fields -/

/-- R126: `d`, `t` and `r` at bits 16, 9:8 and 4:0 of `V`. -/
theorem decodeOp_requestType (d : BitVec 1) (t : BitVec 2) (r : BitVec 5) (w0 a : Word) :
    decodeOp ⟨w0, 0#15 ++ d ++ 0#6 ++ t ++ 0#3 ++ r, a⟩ .requestType = .ok (.requestType d t r) := by
  simp only [decodeOp, Except.ok.injEq, Instr.requestType.injEq]
  refine ⟨?_, ?_, ?_⟩ <;> apply BitVec.eq_of_toNat_eq <;>
    simp only [extract_toNat, append_toNat, BitVec.toNat_ofNat] <;> omega

/-- R128: the fields of bmRequestType, `bRequest` and `wValue` fill `V`, `wIndex` and `wLength` fill `A`. -/
theorem decodeOp_setupEncode (p : SetupPacket) (w0 : Word) :
    decodeOp ⟨w0, p.wValue ++ p.bRequest ++ p.direction ++ p.type ++ p.recipient, p.wLength ++ p.wIndex⟩ .setupEncode =
      .ok (.setupEncode p) := by
  obtain ⟨recipient, type, direction, bRequest, wValue, wIndex, wLength⟩ := p
  simp only [decodeOp, Except.ok.injEq, Instr.setupEncode.injEq, SetupPacket.mk.injEq]
  refine ⟨?_, ?_, ?_, ?_, ?_, ?_, ?_⟩ <;> apply BitVec.eq_of_toNat_eq <;>
    simp only [extract_toNat, append_toNat] <;> omega

/-- R142: the six bits of the setup view at bits 5:0 of `V`. -/
theorem decodeOp_ctrlPack (f : CtrlBits) (w0 a : Word) :
    decodeOp ⟨w0, 0#26 ++ f.bdtStall ++ f.dts ++ f.ninc ++ f.keep ++ f.data01 ++ f.own, a⟩ .ctrlPack =
      .ok (.ctrlPack f) := by
  obtain ⟨own, data01, keep, ninc, dts, bdtStall⟩ := f
  simp only [decodeOp, Except.ok.injEq, Instr.ctrlPack.injEq, CtrlBits.mk.injEq]
  refine ⟨?_, ?_, ?_, ?_, ?_, ?_⟩ <;> apply BitVec.eq_of_toNat_eq <;>
    simp only [extract_toNat, append_toNat, BitVec.toNat_ofNat] <;> omega

/-! ## The toggle operand (R173, R174) -/

theorem bufferToggle_ofBit_operand (t : BufferToggle) :
    BufferToggle.ofBit ((0#7 ++ bit1 t.bit : Byte).getLsbD 0) = t := by cases t <;> rfl

theorem dataToggle_ofBit_operand (t : DataToggle) :
    DataToggle.ofBit ((0#7 ++ bit1 t.bit : Byte).getLsbD 0) = t := by cases t <;> rfl

/-- Settles O13: an encoding is decoded by its operation code (`decode_word0`) or its token (`ofPidByte_tokenFor`), and
each operand is read from the field that the form of its record puts it in. -/
theorem decodeOfEncode : Obligations.DecodeOfEncode := by
  intro i hwf
  cases i with
  | bdtInit | bdtSetBc | bdtSetAddr | bdtSetCtrl | bdtReadCtrl | bdtReadBc | bdtReadAddr =>
    simp [encode, handleRecord, decode_word0, decodeOp, Record.handle, ep_word0, dir_word0, par_word0, b_word0,
      low16_of_word]
  | flipBuf | flipData | clearToggles | readToggles =>
    simp [encode, channelRecord, decode_word0, decodeOp, ep_word0, dir_word0]
  | statEncode => simp [encode, decode_word0, decodeOp, ep_word0, dirBit_word0, parBit_word0]
  | statDecode | statToHandle | reqRecipient | reqType | reqDirection | ctrlSetupView | ctrlResultView =>
    simp [encode, byteRecord, decode_word0, decodeOp, b_word0]
  | notBuf t => simp only [encode, byteRecord, decode_word0, decodeOp, b_word0, bufferToggle_ofBit_operand]
  | notData t => simp only [encode, byteRecord, decode_word0, decodeOp, b_word0, dataToggle_ofBit_operand]
  | oddReset | statPop | barrier | setupFetch => simp [encode, plainRecord, decode_word0, decodeOp]
  | requestType d t r => exact (decode_word0 ..).trans (decodeOp_requestType d t r _ _)
  | setupEncode p => exact (decode_word0 ..).trans (decodeOp_setupEncode p _)
  | ctrlPack f => exact (decode_word0 ..).trans (decodeOp_ctrlPack f _ _)
  | setupDecode s =>
    have hlen : s.length = 8 := by simpa [Instr.wellFormed] using hwf
    simp [encode, plainRecord, decode_word0, decodeOp, bytesOfWord_wordAt hlen]
  | memStore1 | memStore2 | memStore4 | memLoad1 | memLoad2 | memLoad4 =>
    simp [encode, memRecord, decode_word0, decodeOp, sz_word0, low8_of_word, low16_of_word]
  | sieSetup | sieOut | sieIn => simp [encode, decode, decodeHostStep, ofPidByte_tokenFor, endp_tokenFor]

end Sys2Proof
end

section
/-! PROOFS. Which records spell an operation (R105, R110): the decoder, the words of the claims and the table of masks
agree on it. -/

namespace Sys2Proof

open Sys2Proof.Machine

/-! ## Operation codes as numbers -/

theorem ofByte_eq_some_iff {b : Byte} {o : Opcode} : Opcode.ofByte b = some o ↔ b = o.toByte := by
  constructor
  · intro ho
    unfold Opcode.ofByte at ho
    split at ho <;> cases ho
    all_goals exact BitVec.eq_of_toNat_eq ‹_›
  · rintro rfl
    exact ofByte_toByte o

/-- The 31 operation codes of R102 as the claims list them. -/
def opcodeNumbers : List Nat :=
  [0x01, 0x02, 0x03, 0x04, 0x05, 0x06, 0x07, 0x10, 0x11, 0x12, 0x13, 0x14, 0x20, 0x21, 0x22, 0x23, 0x30, 0x31, 0x32,
    0x33, 0x34, 0x35, 0x36, 0x37, 0x38, 0x39, 0x3A, 0x40, 0x41, 0x42, 0x43]

theorem mem_opcodeNumbers_iff (b : Byte) : b.toNat ∈ opcodeNumbers ↔ ∃ o : Opcode, b = o.toByte := by
  constructor
  · intro hb
    have hsome : ∀ n ∈ opcodeNumbers, (Opcode.ofByte (BitVec.ofNat 8 n)).isSome := by decide
    obtain ⟨o, ho⟩ := Option.isSome_iff_exists.1 (hsome _ hb)
    exact ⟨o, ofByte_eq_some_iff.1 (by simpa using ho)⟩
  · rintro ⟨o, rfl⟩
    cases o <;> decide

/-- The two operation codes that `SZ` is part of (R105). -/
def Opcode.isSized (o : Opcode) : Prop := o = .memStore ∨ o = .memLoad

theorem toByte_mem_sizedNumbers_iff (o : Opcode) : o.toByte.toNat ∈ [0x41, 0x42] ↔ o.isSized := by
  unfold Opcode.isSized
  cases o <;> decide

/-- The record spells operation code `o`: bits 7:0 are 0, `OP` is its code, and `SZ` is not reserved where it counts
(R105). -/
structure SpellsOpcode (r : Record) (o : Opcode) : Prop where
  lowZero : r.low = 0#8
  opIs    : r.op = o.toByte
  sizeOk  : o.isSized → r.sz ≠ 3#2

theorem low_eq_zero_iff (r : Record) : r.low = 0#8 ↔ r.w0.toNat % 2 ^ 8 = 0 := by
  rw [← BitVec.toNat_inj, Record.low, extract_toNat, BitVec.toNat_ofNat]
  simp

theorem op_toNat (r : Record) : r.op.toNat = r.w0.toNat / 2 ^ 24 := by
  rw [Record.op, extract_toNat]
  omega

theorem sz_eq_three_iff (r : Record) : r.sz = 3#2 ↔ r.w0.toNat / 2 ^ 16 % 4 = 3 := by
  rw [← BitVec.toNat_inj, sz_toNat]
  rfl

/-- R105 in the words of the claims and by fields. -/
theorem not_spellsNothing_iff (r : Record) : ¬ SpellsNothing r.w0 ↔ ∃ o, SpellsOpcode r o := by
  have hcodes := mem_opcodeNumbers_iff r.op
  unfold SpellsNothing
  rw [ne_eq, ← low_eq_zero_iff, ← op_toNat, ← sz_eq_three_iff, ← opcodeNumbers, hcodes]
  constructor
  · intro h
    push Not at h
    obtain ⟨hlow, ⟨o, ho⟩, hsz⟩ := h
    exact ⟨o, hlow, ho, fun hs => hsz (ho ▸ (toByte_mem_sizedNumbers_iff o).2 hs)⟩
  · rintro ⟨o, hlow, ho, hsz⟩ (h | h | ⟨h, h3⟩)
    · exact h hlow
    · exact h ⟨o, ho⟩
    · exact hsz ((toByte_mem_sizedNumbers_iff o).1 (ho ▸ h)) h3

/-! ## The decoder -/

/-- Every operation the decoder answers is well formed (R103). -/
theorem decodeOp_wellFormed {r : Record} {o : Opcode} {i : Instr} (h : decodeOp r o = .ok i) : i.wellFormed = true := by
  cases o <;> simp only [decodeOp] at h
  case memStore | memLoad => split at h <;> cases h <;> rfl
  all_goals cases h; rfl

/-- An operation code has its operands in every record, but for the reserved size of a memory operation (R105). -/
theorem decodeOp_isOk_iff (r : Record) (o : Opcode) : (∃ i, decodeOp r o = .ok i) ↔ (o.isSized → r.sz ≠ 3#2) := by
  have hsz : r.sz = 0#2 ∨ r.sz = 1#2 ∨ r.sz = 2#2 ∨ r.sz = 3#2 := by
    generalize r.sz = z
    revert z
    decide
  unfold Opcode.isSized
  cases o
  case memStore | memLoad => rcases hsz with h | h | h | h <;> simp [decodeOp, h]
  all_goals simp [decodeOp]

theorem decodeRecord_eq_ok_iff (r : Record) (i : Instr) :
    decodeRecord r = .ok i ↔ r.low = 0#8 ∧ ∃ o, r.op = o.toByte ∧ decodeOp r o = .ok i := by
  simp only [← ofByte_eq_some_iff]
  unfold decodeRecord
  split
  case isTrue hlow => cases ho : Opcode.ofByte r.op <;> simp [hlow]
  case isFalse hlow => simp [hlow]

theorem decode_command_isOk_iff (r : Record) :
    (∃ i, decode (.command r) = .ok i) ↔ ¬ SpellsNothing r.w0 := by
  simp only [not_spellsNothing_iff, decode, decodeRecord_eq_ok_iff]
  constructor
  · rintro ⟨i, hlow, o, ho, hi⟩
    exact ⟨o, hlow, ho, (decodeOp_isOk_iff r o).1 ⟨i, hi⟩⟩
  · rintro ⟨o, hlow, ho, hsz⟩
    obtain ⟨i, hi⟩ := (decodeOp_isOk_iff r o).2 hsz
    exact ⟨i, hlow, o, ho, hi⟩

theorem decode_command_wellFormed {r : Record} {i : Instr} (h : decode (.command r) = .ok i) : i.wellFormed = true := by
  obtain ⟨-, o, -, hi⟩ := (decodeRecord_eq_ok_iff r i).1 h
  exact decodeOp_wellFormed hi

theorem decode_command_error {r : Record} (h : SpellsNothing r.w0) : ∃ e, decode (.command r) = .error e := by
  cases hd : decode (.command r) with
  | error e => exact ⟨e, rfl⟩
  | ok i => exact absurd h ((decode_command_isOk_iff r).1 ⟨i, hd⟩)

/-! ## The table of masks -/

/-- A field that the row's mask fixes is the row's own in every word that matches. -/
theorem extract_of_matches {row : OpRow} {w : Word} {k n : Nat} (hm : row.matches w = true)
    (hmask : row.mask.extractLsb' k n = BitVec.allOnes n) : w.extractLsb' k n = row.value.extractLsb' k n := by
  rw [← eq_of_beq hm, BitVec.extractLsb'_and, hmask, BitVec.and_allOnes]

/-- Every row spells an operation, and its mask fixes `OP`, bits 7:0 and, where it counts, `SZ`. -/
theorem commandRows_fix : ∀ row ∈ commandRows, ¬ SpellsNothing row.value ∧
    row.mask.extractLsb' 24 8 = BitVec.allOnes 8 ∧ row.mask.extractLsb' 0 8 = BitVec.allOnes 8 ∧
    (row.value.toNat / 2 ^ 24 ∈ [0x41, 0x42] → row.mask.extractLsb' 16 2 = BitVec.allOnes 2) := by
  unfold SpellsNothing
  decide

theorem not_spellsNothing_of_matches {row : OpRow} {w : Word} (hr : row ∈ commandRows) (hm : row.matches w = true) :
    ¬ SpellsNothing w := by
  obtain ⟨hv, hop, hlow, hsz⟩ := commandRows_fix row hr
  obtain ⟨o, hvlow, hvop, hvsz⟩ := (not_spellsNothing_iff ⟨row.value, 0#32, 0#32⟩).1 hv
  refine (not_spellsNothing_iff ⟨w, 0#32, 0#32⟩).2
    ⟨o, (extract_of_matches hm hlow).trans hvlow, (extract_of_matches hm hop).trans hvop, fun hs h3 => hvsz hs ?_⟩
  have hcode : row.value.toNat / 2 ^ 24 ∈ [0x41, 0x42] := by
    rw [← op_toNat ⟨row.value, 0#32, 0#32⟩, hvop]
    exact (toByte_mem_sizedNumbers_iff o).2 hs
  exact (extract_of_matches hm (hsz hcode)).symm.trans h3

/-- Word 0 is the word of its fields when bits 7:0 are 0 (R101). -/
theorem word0_fields {r : Record} (h : r.low = 0#8) : word0 r.op r.ep r.dirBit r.parBit r.sz r.b = r.w0 := by
  rw [low_eq_zero_iff] at h
  apply BitVec.eq_of_toNat_eq
  simp only [word0_toNat, Record.op, Record.ep, Record.dirBit, Record.parBit, Record.sz, Record.b, extract_toNat]
  omega

/-- A mask of whole fields keeps those fields and clears the others. -/
theorem and_fieldMask {n₁ n₂ n₃ n₄ n₅ n₆ n₇ : Nat} (op : BitVec n₁) (ep : BitVec n₂) (dir : BitVec n₃) (par : BitVec n₄)
    (sz : BitVec n₅) (b : BitVec n₆) (low : BitVec n₇) :
    (op ++ ep ++ dir ++ par ++ sz ++ b ++ low) &&&
        (BitVec.allOnes n₁ ++ 0#n₂ ++ 0#n₃ ++ 0#n₄ ++ BitVec.allOnes n₅ ++ 0#n₆ ++ BitVec.allOnes n₇) =
      op ++ 0#n₂ ++ 0#n₃ ++ 0#n₄ ++ sz ++ 0#n₆ ++ low := by
  simp [BitVec.and_append]

/-- Rows look at no bit outside `OP`, `SZ` and bits 7:0. -/
theorem matches_word0 {row : OpRow} (hr : row ∈ commandRows) (op : Byte) (ep : Ep) (dir par : BitVec 1) (sz : BitVec 2)
    (b : Byte) : row.matches (word0 op ep dir par sz b) = row.matches (word0 op 0#4 0#1 0#1 sz 0#8) := by
  have hmask : ∀ row ∈ commandRows, row.mask = 0xFF0300FF#32 &&& row.mask := by decide
  have hcut (ep : Ep) (dir par : BitVec 1) (b : Byte) :
      word0 op ep dir par sz b &&& 0xFF0300FF#32 = word0 op 0#4 0#1 0#1 sz 0#8 :=
    and_fieldMask op ep dir par sz b 0#8
  rw [OpRow.matches, OpRow.matches, hmask row hr, ← BitVec.and_assoc, ← BitVec.and_assoc, hcut, hcut]

/-- No two rows match one word, and each operation code and size has a row (R110). -/
theorem commandRows_filter_length (o : Opcode) (sz : BitVec 2) (h : o.isSized → sz ≠ 3#2) :
    (commandRows.filter (fun w => w.matches (word0 o.toByte 0#4 0#1 0#1 sz 0#8))).length = 1 := by
  revert h sz
  unfold Opcode.isSized
  cases o <;> decide

theorem exists_row_of_spellsOpcode {r : Record} {o : Opcode} (h : SpellsOpcode r o) :
    ∃ row, commandRows.filter (fun w => w.matches r.w0) = [row] := by
  rw [← List.length_eq_one_iff, ← commandRows_filter_length o r.sz h.sizeOk]
  congr 1
  refine List.filter_congr fun row hr => ?_
  rw [← word0_fields h.lowZero, h.opIs, matches_word0 hr]

/-- Settles O14: the records that decode are those of the rows, and `commandRows_filter_length` counts one row each. -/
theorem everyRecordOneRowOrRefused : Obligations.EveryRecordOneRowOrRefused := by
  intro r
  by_cases hr : SpellsNothing r.w0
  · refine .inr ⟨List.filter_eq_nil_iff.2 fun row hrow hm => ?_, decode_command_error hr⟩
    exact not_spellsNothing_of_matches hrow hm hr
  · obtain ⟨o, ho⟩ := (not_spellsNothing_iff r).1 hr
    obtain ⟨row, hrow⟩ := exists_row_of_spellsOpcode ho
    obtain ⟨i, hi⟩ := (decode_command_isOk_iff r).2 hr
    exact .inl ⟨row, hrow, i, hi, decode_command_wellFormed hi⟩

end Sys2Proof
end

section
/-! PROOFS. The host's packets (R99, R104, R106): which transaction a token selects. -/

namespace Sys2Proof

open Sys2Proof.Machine

theorem tokenPidByte_toNat (t : BitVec 24) : (tokenPidByte t).toNat = t.toNat % 256 := by
  simp [tokenPidByte]

theorem tokenEndp_eq (t : BitVec 24) : tokenEndp t = BitVec.ofNat 4 (t.toNat / 2 ^ 15) := extract_eq_ofNat t 15 4

/-- R106: a PID byte that is no token's selects nothing. -/
theorem decode_host_notAToken {h : HostStep} (hn : h.token.toNat % 256 ∉ [0x2D, 0xE1, 0x69]) :
    decode (.host h) = .error .notAToken := by
  rw [← tokenPidByte_toNat] at hn
  have hnone : Tok.ofPidByte (tokenPidByte h.token) = none := by
    unfold Tok.ofPidByte
    split
    case h_4 => rfl
    all_goals
      rename_i hp
      simp [hp] at hn
  simp [decode, decodeHostStep, hnone]

/-- Settles O15: `Tok.ofPidByte` of the byte that each clause names. -/
theorem tokenSelectsTransaction : Obligations.TokenSelectsTransaction := by
  intro h
  simp only [← tokenEndp_eq]
  refine ⟨fun hp => ?_, fun hp => ?_, fun hp => ?_, decode_host_notAToken⟩ <;>
    simp [decode, decodeHostStep, Tok.ofPidByte, tokenPidByte_toNat, hp]

/-- Settles O12, vector by vector. -/
theorem sampleWordsDecode : Obligations.SampleWordsDecode := by
  unfold Obligations.SampleWordsDecode
  refine ⟨?_, ?_, ?_, ?_, ?_, ?_, ?_⟩ <;> rfl

end Sys2Proof
end

section
/-! PROOFS. Turns that bring a token, a bad command, or nothing (R105, R106, R278, R314). -/

namespace Sys2Proof.Machine

variable {s : State}

theorem takeTurn_of_cons {u : Turn} {rest : List Turn} (hc : s.sched = u :: rest) :
    s.takeTurn = { s with sched := rest } := by
  rw [State.takeTurn, hc, List.tail_cons]

theorem hostAction_of_ok {h : HostStep} {i : Instr} (hd : decode (.host h) = .ok i) (s : State) :
    hostAction h s = .run i s := by
  rw [hostAction, hd]

theorem hostAction_of_error {h : HostStep} {e : DecodeError} (hd : decode (.host h) = .error e) (s : State) :
    hostAction h s = .done (.next s) := by
  rw [hostAction, hd]

theorem fwAction_of_end (hn : s.prog.length ≤ s.pc) : fwAction s = .done (.next s) := by
  rw [fwAction, List.getElem?_eq_none hn]

theorem fwAction_of_error {r : Record} {e : DecodeError} (hr : s.prog[s.pc]? = some r)
    (hd : decode (.command r) = .error e) : fwAction s = .done (.next (s.setRefused .badCommand)) := by
  simp only [fwAction, hr, hd]
  rfl

/-- Settles O5: on the host's turn the action is the host's, which runs the transaction that its token decodes to. -/
theorem stepRunsDecodedToken : Obligations.StepRunsDecodedToken := by
  intro s h rest i hs hc hd
  rw [step_eq_outcome, nextAction_of_safe_host hs hc, hostAction_of_ok hd, Action.outcome_run, takeTurn_of_cons hc]

/-- Settles O8: FW has no record past the end of its list, and the packet decodes to no transaction. -/
theorem turnsWithoutAStepPass : Obligations.TurnsWithoutAStepPass := by
  intro s hs
  refine ⟨fun hw hn => ?_, fun h rest hc hp => ?_⟩
  · have hn' : s.takeTurn.prog.length ≤ s.takeTurn.pc := hn
    rw [step_eq_outcome, nextAction_of_safe_fw hs hw, fwAction_of_end hn', Action.outcome_done, State.takeTurn]
  · rw [step_eq_outcome, nextAction_of_safe_host hs hc, hostAction_of_error (decode_host_notAToken hp),
      Action.outcome_done, takeTurn_of_cons hc]

/-- Settles O6: the decoder fails exactly on such a record, which FW's action refuses; the mark then stops the run. -/
theorem badCommandIsRefused : Obligations.BadCommandIsRefused := by
  refine ⟨fun r => (decode_command_isOk_iff r).2, fun s r hs hw hr hn => ⟨?_, step_of_refused hs.1 rfl⟩⟩
  obtain ⟨e, he⟩ := decode_command_error hn
  have hr' : s.takeTurn.prog[s.takeTurn.pc]? = some r := hr
  rw [step_eq_outcome, nextAction_of_safe_fw hs hw, fwAction_of_error hr' he, Action.outcome_done]
  simp [State.setRefused, State.takeTurn, hs.2]

end Sys2Proof.Machine
end

section
/-! PROOFS. Records and results in the words of the claims: the operands that a record spells (R101, R103), and what it
takes to return one value (R31). -/

namespace Sys2Proof

open Sys2Proof.Machine

theorem fieldOf_eq_extract (w : Word) (k n : Nat) : fieldOf w k n = w.extractLsb' k n := by
  apply BitVec.eq_of_toNat_eq
  rw [fieldOf, extract_toNat, BitVec.toNat_ofNat, Nat.mod_mod]

theorem byteOf_eq_b (r : Record) : byteOf r = r.b := fieldOf_eq_extract r.w0 8 8

theorem decode_of_spells {r : Record} (o : Opcode) (h : Spells r o.toByte.toNat) :
    decode (.command r) = decodeOp r o :=
  decode_of_op h.1 h.2 (by rw [BitVec.ofNat_toNat, BitVec.setWidth_eq, ofByte_toByte])

theorem returns_of_exec {i : Instr} {v v' : Value} (he : ∀ s, exec i s = .next (s.out v).advance) (hv : v = v') :
    Returns i v' :=
  hv ▸ he

end Sys2Proof
end

section
/-! PROOFS. The request codec (R120 to R129): bmRequestType and the SETUP packet as numbers, the laws of the codec, and
the operations that return its values. -/

namespace Sys2Proof.Machine

/-! ## The two bytes of a 16-bit field (R61) -/

theorem append_bytes_eq_ofNat (hi lo : Byte) : hi ++ lo = BitVec.ofNat 16 (lo.toNat + 256 * hi.toNat) := by
  apply BitVec.eq_of_toNat_eq
  rw [append_toNat, BitVec.toNat_ofNat]
  omega

@[simp] theorem append_highByte_lowByte (v : Half) : v.extractLsb' 8 8 ++ v.extractLsb' 0 8 = v := by
  rw [BitVec.extractLsb'_append_extractLsb'_eq_extractLsb' (by rfl), BitVec.extractLsb'_eq_self]

/-! ## bmRequestType (R97, R120 to R122, R126) -/

theorem reqRecipient_eq_ofNat (b : Byte) : reqRecipient b = BitVec.ofNat 5 (b.toNat % 32) := by
  apply BitVec.eq_of_toNat_eq
  rw [reqRecipient, extract_toNat, BitVec.toNat_ofNat]
  omega

theorem reqType_eq_ofNat (b : Byte) : reqType b = BitVec.ofNat 2 (b.toNat / 32 % 4) := by
  apply BitVec.eq_of_toNat_eq
  rw [reqType, extract_toNat, BitVec.toNat_ofNat]
  omega

theorem reqDirection_eq_ofNat (b : Byte) : reqDirection b = BitVec.ofNat 1 (b.toNat / 128) := extract_eq_ofNat b 7 1

section Pack

variable (d : BitVec 1) (t : BitVec 2) (r : BitVec 5)

theorem packRequestType_toNat : (packRequestType d t r).toNat = 128 * d.toNat + 32 * t.toNat + r.toNat := by
  simp only [packRequestType, append_toNat]
  omega

theorem packRequestType_eq_ofNat :
    packRequestType d t r = BitVec.ofNat 8 (128 * d.toNat + 32 * t.toNat + r.toNat) := by
  rw [← packRequestType_toNat, BitVec.ofNat_toNat, BitVec.setWidth_eq]

@[simp] theorem reqDirection_packRequestType : reqDirection (packRequestType d t r) = d := by
  apply BitVec.eq_of_toNat_eq
  rw [reqDirection, extract_toNat, packRequestType_toNat]
  omega

@[simp] theorem reqType_packRequestType : reqType (packRequestType d t r) = t := by
  apply BitVec.eq_of_toNat_eq
  rw [reqType, extract_toNat, packRequestType_toNat]
  omega

@[simp] theorem reqRecipient_packRequestType : reqRecipient (packRequestType d t r) = r := by
  apply BitVec.eq_of_toNat_eq
  rw [reqRecipient, extract_toNat, packRequestType_toNat]
  omega

end Pack

/-- The three fields cover the byte: packing them gives it back. -/
@[simp] theorem packRequestType_fields (b : Byte) :
    packRequestType (reqDirection b) (reqType b) (reqRecipient b) = b := by
  apply BitVec.eq_of_toNat_eq
  simp only [packRequestType_toNat, reqDirection, reqType, reqRecipient, extract_toNat]
  omega

/-! ## The SETUP packet (R127 to R129) -/

/-- R127: the packet of eight bytes, field by field. -/
theorem decodeSetup_bytes (b0 b1 b2 b3 b4 b5 b6 b7 : Byte) :
    decodeSetup [b0, b1, b2, b3, b4, b5, b6, b7] =
      { recipient := reqRecipient b0, type := reqType b0, direction := reqDirection b0, bRequest := b1,
        wValue := b3 ++ b2, wIndex := b5 ++ b4, wLength := b7 ++ b6 } := rfl

theorem decodeSetup_encodeSetup (p : SetupPacket) : decodeSetup (encodeSetup p) = p := by
  simp only [encodeSetup, decodeSetup_bytes, reqRecipient_packRequestType, reqType_packRequestType,
    reqDirection_packRequestType, append_highByte_lowByte]

theorem encodeSetup_decodeSetup {s : List Byte} (h : s.length = 8) : encodeSetup (decodeSetup s) = s := by
  match s, h with
  | [b0, b1, b2, b3, b4, b5, b6, b7], _ =>
    simp only [decodeSetup_bytes, encodeSetup, packRequestType_fields, BitVec.extractLsb'_append_eq_left,
      BitVec.extractLsb'_append_eq_right]

/-- Settles O20: fields of bmRequestType pack and unpack, and so do the two bytes of each 16-bit field. -/
theorem codecRoundTrips : Obligations.CodecRoundTrips :=
  ⟨fun p => ⟨rfl, decodeSetup_encodeSetup p⟩, fun _ => encodeSetup_decodeSetup,
    fun d t r => ⟨reqDirection_packRequestType d t r, reqType_packRequestType d t r,
      reqRecipient_packRequestType d t r⟩⟩

/-! ## The operations -/

/-- Settles O16: each operation takes `B` and returns one field of it. -/
theorem requestFieldsAreReturned : Obligations.RequestFieldsAreReturned := by
  refine ⟨fun r => ?_, fun b => ⟨?_, ?_, ?_⟩⟩
  · rw [byteOf_eq_b]
    exact ⟨decode_of_spells .reqRecipient, decode_of_spells .reqType, decode_of_spells .reqDirection⟩
  · exact returns_of_exec (fun _ => rfl) (congrArg Value.u5 (reqRecipient_eq_ofNat b))
  · exact returns_of_exec (fun _ => rfl) (congrArg Value.u2 (reqType_eq_ofNat b))
  · exact returns_of_exec (fun _ => rfl) (congrArg Value.u1 (reqDirection_eq_ofNat b))

/-- Settles O17: the byte of the three operands is their sum at the weights of R126. -/
theorem requestTypeIsPacked : Obligations.RequestTypeIsPacked := by
  refine ⟨fun r hr => ?_, fun d t r => ?_⟩
  · simp only [fieldOf_eq_extract]
    exact decode_of_spells .requestType hr
  · exact returns_of_exec (fun _ => rfl) (congrArg Value.u8 (packRequestType_eq_ofNat d t r))

/-- Settles O18: the operation returns `decodeSetup` of the bytes of `V` and `A`. -/
theorem setupPacketIsDecoded : Obligations.SetupPacketIsDecoded := by
  refine ⟨fun r hr => ?_, fun b0 b1 b2 b3 b4 b5 b6 b7 => returns_of_exec (fun _ => rfl) ?_⟩
  · simp only [fieldOf_eq_extract]
    exact decode_of_spells .setupDecode hr
  · simp only [decodeSetup_bytes, reqRecipient_eq_ofNat, reqType_eq_ofNat, reqDirection_eq_ofNat,
      append_bytes_eq_ofNat]

/-- Settles O19: the operation returns `encodeSetup` of the packet that `V` and `A` hold. -/
theorem setupPacketIsEncoded : Obligations.SetupPacketIsEncoded := by
  refine ⟨fun r hr => ?_, fun p => returns_of_exec (fun _ => rfl) ?_⟩
  · simp only [fieldOf_eq_extract]
    exact decode_of_spells .setupEncode hr
  · simp only [encodeSetup, packRequestType_eq_ofNat, extract_eq_ofNat, ofNat_byte_mod, Nat.reducePow, Nat.div_one]

end Sys2Proof.Machine
end

section
/-! PROOFS. Handle operands of a record (R101, R103), and what the check of R143 makes of an entry operation: its
faults, and its next state where it passes. -/

namespace Sys2Proof.Machine

/-! ## Handle operands -/

theorem bitOf_eq_getLsbD (w : Word) (k : Nat) : bitOf w k = w.getLsbD k := (getLsbD_eq_div w k).symm

theorem handleOf_eq_handle (r : Record) : handleOf r = r.handle := by
  have hdir : r.dirBit.getLsbD 0 = bitOf r.w0 19 := by simp [Record.dirBit, bitOf_eq_getLsbD]
  have hpar : r.parBit.getLsbD 0 = bitOf r.w0 18 := by simp [Record.parBit, bitOf_eq_getLsbD]
  rw [handleOf, Record.handle, Record.dir, Record.par, hdir, hpar, fieldOf_eq_extract]
  rfl

/-! ## Behind the check of R143 -/

variable {s t : State} {i : Instr} {h : Handle} {k : Bool → Result}

theorem writerFaults_of_withEntry {k : State → Bool → Result}
    (hx : ∀ s, exec i s = withEntry h .write s (k s)) : WriterFaults i h := fun s =>
  ⟨fun he => (hx s).trans (withEntry_badHandle .write _ he),
    fun he ho => (hx s).trans (withEntry_write_sie _ he ho),
    fun he ho ha => (hx s).trans (withEntry_unacquired .write _ he ho ha)⟩

theorem readerFaults_of_withEntry {k : State → Bool → Result}
    (hx : ∀ s, exec i s = withEntry h .readField s (k s)) : ReaderFaults i h := fun s =>
  ⟨fun he => (hx s).trans (withEntry_badHandle .readField _ he),
    fun he ho ha => (hx s).trans (withEntry_unacquired .readField _ he ho ha)⟩

/-- A field may be read of an acquired entry and of one the SIE owns; the operation is told which. -/
theorem withEntry_read_ok (ha : MayAccess s h ∨ HasEp s h.ep ∧ OwnedBySie (s.entry h)) :
    withEntry h .readField s k = k (s.entry h).isSie := by
  rcases ha with hm | ⟨he, ho⟩
  · rw [withEntry_ok _ _ hm, (isSie_false_iff _).2 hm.mcuOwned]
  · rw [withEntry_read_sie _ he ho, (isSie_iff _).2 ho]

/-- A writer that comes to `t` has recorded a fault of R143 or has passed the check. -/
theorem withEntry_write_next (hx : withEntry h .write s k = .next t) :
    (∃ f d, t = s.addFault ⟨f, d, some s.pc⟩ ∧ f ≠ .unorderedRelease) ∨ MayAccess s h ∧ k false = .next t := by
  rcases withEntry_cases h .write s k with ⟨f, d, hw, hf⟩ | ⟨hm, hw⟩ | ⟨hk, -⟩
  · rw [hw] at hx
    cases hx
    exact .inl ⟨f, d, rfl, hf⟩
  · exact .inr ⟨hm, hw ▸ hx⟩
  · cases hk

/-! ## Each entry operation as its check and what stands behind it (R145 to R151) -/

/-- What becomes of the write of a control byte (R144): the operation completes, or records the fault. -/
def ctrlOutcome (h : Handle) (s : State) : Except Fault State → Result
  | .ok t => .next t.advance
  | .error f => raise (entryFault f h s) s

section Checked

variable (s : State) (h : Handle) (ctrl : Byte) (bc : Half) (addr : Word)

theorem exec_bdtInit : exec (.bdtInit h ctrl bc addr) s = withEntry h .write s fun _ =>
    ctrlOutcome h s (fwWriteCtrl h ctrl ((s.writeBc h bc).writeAddr h addr).barrierEffect) := rfl

theorem exec_bdtSetBc : exec (.bdtSetBc h bc) s = withEntry h .write s fun _ =>
    .next ((s.writeBc h bc).setPending true).advance := rfl

theorem exec_bdtSetAddr : exec (.bdtSetAddr h addr) s = withEntry h .write s fun _ =>
    .next ((s.writeAddr h addr).setPending true).advance := rfl

theorem exec_bdtSetCtrl : exec (.bdtSetCtrl h ctrl) s = withEntry h .write s fun _ =>
    ctrlOutcome h s (fwWriteCtrl h ctrl s) := rfl

theorem exec_bdtReadBc : exec (.bdtReadBc h) s = withEntry h .readField s fun sieOwned =>
    .next ((s.out (.u16 (if sieOwned || !(s.entry h).bcW then Config.draw 16 s.draws
      else (s.entry h).bc))).useDraws 1).advance := rfl

theorem exec_bdtReadAddr : exec (.bdtReadAddr h) s = withEntry h .readField s fun sieOwned =>
    .next ((s.out (.u32 (if sieOwned || !(s.entry h).addrW then Config.draw 32 s.draws
      else (s.entry h).addr))).useDraws 1).advance := rfl

end Checked

/-! ## The control byte (R144, R145, R148) -/

/-- With `pending` false every control byte may be written, and only a byte that keeps the entry sets `pending`. -/
theorem fwWriteCtrl_ordered (h : Handle) (v : Byte) (hp : s.pending = false) :
    fwWriteCtrl h v s = .ok ((s.setEntry h { s.entry h with ctrl := v, ctrlW := true }).setPending (!v[7])) := by
  cases hv : v[7] with
  | false => exact fwWriteCtrl_plain h s hv
  | true =>
    rw [fwWriteCtrl_release h hv hp, State.setPending, Bool.not_true, ← hp]
    rfl

/-- R145: behind its check BDT_INIT completes, since its barrier leaves `pending` false for the control byte. -/
theorem exec_bdtInit_ok (ctrl : Byte) (bc : Half) (addr : Word) (hm : MayAccess s h) :
    exec (.bdtInit h ctrl bc addr) s = .next ((s.barrierEffect.setEntry h { s.entry h with
      ctrl := ctrl, ctrlW := true, bc := bc, bcW := true, addr := addr, addrW := true }).setPending
        (!ctrl[7])).advance := by
  rw [exec_bdtInit, withEntry_ok _ _ hm, writeBc_writeAddr, setEntry_barrierEffect _ (by exact hm.isAcquired),
    fwWriteCtrl_ordered h ctrl rfl, entry_setEntry_same, setEntry_setEntry]
  rfl

/-- Settles O35: behind its check each operation completes with its one field written. -/
theorem setBcAndSetAddrWriteOneField : Obligations.SetBcAndSetAddrWriteOneField := by
  refine ⟨fun r => ?_, fun h bc addr => ⟨writerFaults_of_withEntry fun s => exec_bdtSetBc s h bc,
    writerFaults_of_withEntry fun s => exec_bdtSetAddr s h addr, fun s hm => ⟨?_, ?_⟩⟩⟩
  · rw [handleOf_eq_handle, fieldOf_eq_extract]
    exact ⟨decode_of_spells .bdtSetBc, decode_of_spells .bdtSetAddr⟩
  · exact (exec_bdtSetBc ..).trans (withEntry_ok .write _ hm)
  · exact (exec_bdtSetAddr ..).trans (withEntry_ok .write _ hm)

/-- Settles O36: the three outcomes of the write of a control byte. -/
theorem setCtrlWritesOrReleases : Obligations.SetCtrlWritesOrReleases := by
  refine ⟨fun r hr => ?_, fun h ctrl => ⟨writerFaults_of_withEntry fun s => exec_bdtSetCtrl s h ctrl, fun s hm => ?_⟩⟩
  · rw [handleOf_eq_handle, byteOf_eq_b]
    exact decode_of_spells .bdtSetCtrl hr
  · rw [exec_bdtSetCtrl, withEntry_ok _ _ hm]
    refine ⟨fun hv => ?_, fun hv hp => ?_, fun hv hp => ?_⟩
    · rw [fwWriteCtrl_plain h s hv]
      rfl
    · rw [fwWriteCtrl_release h hv hp]
      rfl
    · rw [fwWriteCtrl_pending h hv hp]
      rfl

/-- Settles O34: the next state is that of `exec_bdtInit_ok`, read entry by entry. -/
theorem bdtInitWritesTheEntry : Obligations.BdtInitWritesTheEntry := by
  refine ⟨fun r hr => ?_, fun h ctrl bc addr => ⟨writerFaults_of_withEntry fun s => exec_bdtInit s h ctrl bc addr,
    fun s hm => ⟨_, exec_bdtInit_ok ctrl bc addr hm, fun h' => ?_⟩⟩⟩
  · rw [handleOf_eq_handle, byteOf_eq_b, fieldOf_eq_extract]
    exact decode_of_spells .bdtInit hr
  · refine (entry_setEntry s.barrierEffect h h' _).trans ?_
    rw [entry_barrierEffect, BdtEntry.afterBarrier]
    simp only [eq_comm]

/-! ## Faults of BDT_INIT (R145, R253) -/

theorem mem_faultCodes_addFault (f : Fault) (r : FaultRecord) :
    f ∈ (s.addFault r).faultCodes ↔ f ∈ s.faultCodes ∨ f = r.code := by
  simp only [State.faultCodes, faults_addFault]
  split
  case isTrue hr =>
    refine ⟨.inl, fun hf => hf.elim id ?_⟩
    rintro rfl
    exact List.mem_map_of_mem hr
  case isFalse => simp

/-- Settles O40: the check records other faults, and behind it BDT_INIT records none. -/
theorem initNeverUnorderedRelease : Obligations.InitNeverUnorderedRelease := by
  intro h ctrl bc addr s t hs hx
  rcases withEntry_write_next (exec_bdtInit .. ▸ hx) with ⟨f, d, rfl, hf⟩ | ⟨hm, -⟩
  · rw [mem_faultCodes_addFault]
    exact fun hmem => hmem.elim hs (Ne.symm hf)
  · rw [exec_bdtInit_ok ctrl bc addr hm] at hx
    cases hx
    exact hs

end Sys2Proof.Machine
end

section
/-! PROOFS. The readers of an entry (R149 to R151): the value each returns, and the handback that BDT_READ_CTRL
observes. -/

namespace Sys2Proof.Machine

variable {s : State} {h : Handle}

@[simp] theorem setEntry_entry (s : State) (h : Handle) : s.setEntry h (s.entry h) = s := by
  simp [State.setEntry, State.entry]

theorem ctrlOwn_readableCtrl (e : BdtEntry) (fresh : BitVec 7) :
    ctrlOwn (readableCtrl e fresh) = ctrlOwn e.ctrl := by
  rw [readableCtrl]
  split
  · rfl
  · exact BitVec.extractLsb'_append_eq_left

theorem own_readableCtrl (e : BdtEntry) (fresh : BitVec 7) : (readableCtrl e fresh)[7] = e.ctrl[7] := by
  rw [← ctrlIsSie_eq, ← ctrlIsSie_eq, ctrlIsSie, ctrlOwn_readableCtrl]
  rfl

theorem readableCtrl_of_written {e : BdtEntry} (hw : e.ctrlW = true) (fresh : BitVec 7) :
    readableCtrl e fresh = e.ctrl := if_pos hw

theorem exec_bdtReadCtrl_badHandle (he : ¬ HasEp s h.ep) :
    exec (.bdtReadCtrl h) s = .next (s.addFault ⟨.badHandle, .endpoint h.ep, some s.pc⟩) := by
  rw [exec, execBdtReadCtrl, if_neg (mt (hasEndpoint_iff ..).1 he)]
  rfl

theorem exec_bdtReadCtrl_ok (he : HasEp s h.ep) :
    exec (.bdtReadCtrl h) s = .next (((s.setEntry h (s.entry h).afterReadCtrl).out
      (.u8 (readableCtrl (s.entry h) (Config.draw 7 s.draws)))).useDraws 1).advance := by
  rw [exec, execBdtReadCtrl, if_pos ((hasEndpoint_iff ..).2 he)]

/-- Settles O37: the value is `readableCtrl` of the entry, which becomes its `afterReadCtrl`. -/
theorem readCtrlObservesTheHandback : Obligations.ReadCtrlObservesTheHandback := by
  refine ⟨fun r hr => ?_, fun h s => ⟨exec_bdtReadCtrl_badHandle, fun he =>
    ⟨_, readableCtrl (s.entry h) (Config.draw 7 s.draws), exec_bdtReadCtrl_ok he, own_readableCtrl _ _,
      fun hw => readableCtrl_of_written hw _, fun hb => ?_, fun hn => ?_⟩⟩⟩
  · rw [handleOf_eq_handle]
    exact decode_of_spells .bdtReadCtrl hr
  · rw [afterReadCtrl_handback hb]
    rfl
  · rw [afterReadCtrl_other hn, setEntry_entry]
    rfl

/-- Settles O38: each operation is told by the check whether the SIE owns the entry, and draws its value if so or if the
field is unwritten. -/
theorem readBcAndReadAddr : Obligations.ReadBcAndReadAddr := by
  refine ⟨fun r => ?_, fun h => ⟨readerFaults_of_withEntry fun s => exec_bdtReadBc s h,
    readerFaults_of_withEntry fun s => exec_bdtReadAddr s h, fun s ha =>
    ⟨⟨_, _, (exec_bdtReadBc ..).trans (withEntry_read_ok ha), rfl, fun hm hw => ?_⟩,
      ⟨_, _, (exec_bdtReadAddr ..).trans (withEntry_read_ok ha), rfl, fun hm hw => ?_⟩⟩⟩⟩
  · rw [handleOf_eq_handle]
    exact ⟨decode_of_spells .bdtReadBc, decode_of_spells .bdtReadAddr⟩
  · simp [(isSie_false_iff _).2 hm, hw]
  · simp [(isSie_false_iff _).2 hm, hw]

end Sys2Proof.Machine
end

section
/-! PROOFS. The fields of an entry are independent, and so are the entries (R82, R153). -/

namespace Sys2Proof.Machine

variable {s t : State} {i : Instr} {h : Handle}

theorem entry_of_setBc_next {bc : Half} (hx : exec (.bdtSetBc h bc) s = .next t) :
    t.entry h = s.entry h ∨ t.entry h = { s.entry h with bc := bc, bcW := true } := by
  rcases withEntry_write_next (exec_bdtSetBc .. ▸ hx) with ⟨f, d, rfl, -⟩ | ⟨-, ht⟩
  · exact .inl rfl
  · cases ht
    exact .inr (entry_setEntry_same ..)

theorem entry_of_setAddr_next {addr : Word} (hx : exec (.bdtSetAddr h addr) s = .next t) :
    t.entry h = s.entry h ∨ t.entry h = { s.entry h with addr := addr, addrW := true } := by
  rcases withEntry_write_next (exec_bdtSetAddr .. ▸ hx) with ⟨f, d, rfl, -⟩ | ⟨-, ht⟩
  · exact .inl rfl
  · cases ht
    exact .inr (entry_setEntry_same ..)

theorem entry_of_setCtrl_next {ctrl : Byte} (hx : exec (.bdtSetCtrl h ctrl) s = .next t) :
    t.entry h = s.entry h ∨ t.entry h = { s.entry h with ctrl := ctrl, ctrlW := true } := by
  rcases withEntry_write_next (exec_bdtSetCtrl .. ▸ hx) with ⟨f, d, rfl, -⟩ | ⟨-, ht⟩
  · exact .inl rfl
  · rcases fwWriteCtrl_cases h ctrl s with ⟨-, -, hw⟩ | ⟨p, hw, -⟩
    · rw [hw] at ht
      cases ht
      exact .inl rfl
    · rw [hw] at ht
      cases ht
      exact .inr (entry_setEntry_same ..)

/-- The operations of FW that write fields of entry `h` (R145 to R148). -/
def entryWriters (h : Handle) (ctrl : Byte) (bc : Half) (addr : Word) : List Instr :=
  [.bdtSetBc h bc, .bdtSetAddr h addr, .bdtSetCtrl h ctrl, .bdtInit h ctrl bc addr]

section Writers

variable {ctrl : Byte} {bc : Half} {addr : Word} (hi : i ∈ entryWriters h ctrl bc addr)
include hi

theorem mem_of_entryWriters (he : Effect s i t) : t.mem = s.mem := by
  by_contra hne
  rcases he.mem_writer hne with ⟨_, _, rfl⟩ | ⟨_, _, rfl⟩ | ⟨_, _, rfl⟩ | ⟨_, _, _, _, rfl⟩ | ⟨_, _, _, rfl⟩ <;>
    simp [entryWriters] at hi

/-- Another entry is at most acquired by the barrier of BDT_INIT. -/
theorem EntryEffect.fields_of_entryWriters {h' : Handle} {e : BdtEntry} (he : EntryEffect s t h' i e)
    (hne : h' ≠ h) : e.ctrl = (s.entry h').ctrl ∧ e.bc = (s.entry h').bc ∧ e.addr = (s.entry h').addr := by
  cases he with
  | kept => exact ⟨rfl, rfl, rfl⟩
  | initOther => exact ⟨ctrl_afterBarrier _, bc_afterBarrier _, addr_afterBarrier _⟩
  | initialised | wroteBc | wroteAddr | wroteCtrl => simp [entryWriters, hne] at hi
  | barrier | readCtrl => simp [entryWriters] at hi
  | handedBack tok => cases tok <;> simp [entryWriters, sieInstr] at hi

end Writers

/-- Settles O39: field by field of the entry itself, and entry by entry for the others. -/
theorem entryFieldsAreIndependent : Obligations.EntryFieldsAreIndependent := by
  intro h ctrl bc addr s t
  refine ⟨fun hx => ?_, fun hx => ?_, fun hx => ?_, fun i hi hx => ⟨mem_of_entryWriters hi (exec_effect hx),
    fun h' => (entryEffect_of_exec hx h').fields_of_entryWriters hi⟩⟩
  · rcases entry_of_setBc_next hx with he | he <;> rw [he] <;> exact ⟨rfl, rfl⟩
  · rcases entry_of_setAddr_next hx with he | he <;> rw [he] <;> exact ⟨rfl, rfl⟩
  · rcases entry_of_setCtrl_next hx with he | he <;> rw [he] <;> exact ⟨rfl, rfl⟩

end Sys2Proof.Machine
end

section
/-! PROOFS. The views of a control byte (R140 to R142): their fields as numbers, and the law of the packer. -/

namespace Sys2Proof.Machine

/-! ## The fields as numbers (R91 to R94) -/

theorem ctrlRsvd_eq_ofNat (c : Byte) : ctrlRsvd c = BitVec.ofNat 2 (c.toNat % 4) := by
  apply BitVec.eq_of_toNat_eq
  rw [ctrlRsvd, extract_toNat, BitVec.toNat_ofNat]
  omega

theorem ctrlTokPid_eq_ofNat (c : Byte) : ctrlTokPid c = BitVec.ofNat 4 (c.toNat / 4) := extract_eq_ofNat c 2 4

/-- Settles O21: each flag is the bit of its place, and the other fields are as above. -/
theorem controlViewsAreReturned : Obligations.ControlViewsAreReturned := by
  refine ⟨fun r => ?_, fun c => ⟨returns_of_exec (fun _ => rfl) ?_, returns_of_exec (fun _ => rfl) ?_⟩⟩
  · rw [byteOf_eq_b]
    exact ⟨decode_of_spells .ctrlSetupView, decode_of_spells .ctrlResultView⟩
  · simp only [setupView, ctrlOwn, ctrlData01, ctrlKeep, ctrlNinc, ctrlDts, ctrlStall, extract_eq_ofNat,
      ctrlRsvd_eq_ofNat]
  · simp only [resultView, ctrlOwn, ctrlData01, extract_eq_ofNat, ctrlTokPid_eq_ofNat, ctrlRsvd_eq_ofNat]

/-! ## The packer (R142) -/

theorem packCtrl_toNat (f : CtrlBits) : (packCtrl f).toNat =
    128 * f.own.toNat + 64 * f.data01.toNat + 32 * f.keep.toNat + 16 * f.ninc.toNat + 8 * f.dts.toNat +
      4 * f.bdtStall.toNat := by
  simp only [packCtrl, append_toNat, BitVec.toNat_ofNat]
  omega

theorem packCtrl_eq_ofNat (f : CtrlBits) : packCtrl f = BitVec.ofNat 8
    (128 * f.own.toNat + 64 * f.data01.toNat + 32 * f.keep.toNat + 16 * f.ninc.toNat + 8 * f.dts.toNat +
      4 * f.bdtStall.toNat) := by
  rw [← packCtrl_toNat, BitVec.ofNat_toNat, BitVec.setWidth_eq]

@[simp] theorem setupView_packCtrl (f : CtrlBits) : setupView (packCtrl f) = ⟨f, 0⟩ := by
  obtain ⟨own, data01, keep, ninc, dts, bdtStall⟩ := f
  simp only [setupView, SetupView.mk.injEq, CtrlBits.mk.injEq]
  refine ⟨⟨?_, ?_, ?_, ?_, ?_, ?_⟩, ?_⟩ <;> apply BitVec.eq_of_toNat_eq <;>
    simp only [ctrlOwn, ctrlData01, ctrlKeep, ctrlNinc, ctrlDts, ctrlStall, ctrlRsvd, extract_toNat, packCtrl_toNat,
      BitVec.ofNat_eq_ofNat, BitVec.toNat_ofNat] <;> omega

/-- Settles O22: the byte of the six operands is their sum at the weights of R142. -/
theorem controlBitsArePacked : Obligations.ControlBitsArePacked := by
  refine ⟨fun r hr => ?_, fun f => ⟨returns_of_exec (fun _ => rfl) (congrArg Value.u8 (packCtrl_eq_ofNat f)),
    setupView_packCtrl f⟩⟩
  simp only [fieldOf_eq_extract]
  exact decode_of_spells .ctrlPack hr

end Sys2Proof.Machine
end

section
/-! PROOFS. Toggle operations (R173 to R179): the channel operand of a record (R101, R103), the pure flips as
involutions, and the next state of each operation behind its check. -/

namespace Sys2Proof.Machine

/-! ## Operands -/

theorem channelOf_eq (r : Record) : channelOf r = ⟨r.ep, r.dir⟩ := congrArg handleChannel (handleOf_eq_handle r)

/-- The toggle operand of NOT_BUF and NOT_DATA is bit 8 of word 0 (R173, R174). -/
theorem b_getLsbD_zero (r : Record) : r.b.getLsbD 0 = bitOf r.w0 8 := by
  simp [Record.b, bitOf_eq_getLsbD]

/-! ## The pure flips (R173, R174) -/

theorem notBuf_involutive : Function.Involutive notBuf := by
  intro b
  cases b <;> rfl

theorem notData_involutive : Function.Involutive notData := by
  intro d
  cases d <;> rfl

theorem notBuf_eq_odd_iff (b : BufferToggle) : notBuf b = .odd ↔ b = .even := notBuf_involutive.eq_iff

theorem notData_eq_data1_iff (d : DataToggle) : notData d = .data1 ↔ d = .data0 := notData_involutive.eq_iff

/-- Settles O23: the operand is bit 8 of word 0, and both flips are involutions. -/
theorem notFlipsToggles : Obligations.NotFlipsToggles := by
  refine ⟨fun r => ?_, fun _ => rfl, fun _ => rfl, fun _ => rfl, fun _ => rfl, notBuf_involutive, notData_involutive⟩
  rw [← b_getLsbD_zero]
  exact ⟨decode_of_spells .notBuf, decode_of_spells .notData⟩

/-! ## Behind the check of the channel (R175 to R178) -/

variable {s : State} {ep : Ep} {dir : Dir}

theorem channelFault_of_withChannel {i : Instr} {k : State → Result}
    (hx : ∀ s, exec i s = withChannel ⟨ep, dir⟩ s (k s)) : ChannelFault i ep := fun s he =>
  (hx s).trans (withChannel_bad (c := ⟨ep, dir⟩) _ he)

theorem exec_flipBuf_ok (he : HasEp s ep) : exec (.flipBuf ep dir) s =
    .next (s.setBufToggle ⟨ep, dir⟩ (notBuf (s.bufToggle ⟨ep, dir⟩))).advance :=
  withChannel_ok (c := ⟨ep, dir⟩) _ he

theorem exec_flipData_ok (he : HasEp s ep) : exec (.flipData ep dir) s =
    .next (s.setDataToggle ⟨ep, dir⟩ (notData (s.dataToggle ⟨ep, dir⟩))).advance :=
  withChannel_ok (c := ⟨ep, dir⟩) _ he

theorem exec_clearToggles_ok (he : HasEp s ep) : exec (.clearToggles ep dir) s =
    .next ((s.setDataToggle ⟨ep, dir⟩ .data0).setBufToggle ⟨ep, dir⟩ .even).advance :=
  withChannel_ok (c := ⟨ep, dir⟩) _ he

theorem exec_readToggles_ok (he : HasEp s ep) : exec (.readToggles ep dir) s =
    .next (s.out (.toggles (s.bufToggle ⟨ep, dir⟩) (s.dataToggle ⟨ep, dir⟩))).advance :=
  withChannel_ok (c := ⟨ep, dir⟩) _ he

theorem bufToggle_flip_eq_odd_iff (s : State) (c c' : Channel) :
    (s.setBufToggle c (notBuf (s.bufToggle c))).bufToggle c' = .odd ↔
      if c' = c then s.bufToggle c' = .even else s.bufToggle c' = .odd := by
  rw [bufToggle_setBufToggle]
  by_cases hc : c = c'
  · subst hc
    simp only [if_true, notBuf_eq_odd_iff]
  · simp only [if_neg hc, if_neg (Ne.symm hc)]

theorem dataToggle_flip_eq_data1_iff (s : State) (c c' : Channel) :
    (s.setDataToggle c (notData (s.dataToggle c))).dataToggle c' = .data1 ↔
      if c' = c then s.dataToggle c' = .data0 else s.dataToggle c' = .data1 := by
  rw [dataToggle_setDataToggle]
  by_cases hc : c = c'
  · subst hc
    simp only [if_true, notData_eq_data1_iff]
  · simp only [if_neg hc, if_neg (Ne.symm hc)]

/-- Settles O24: behind its check each operation writes the other value at its one channel. -/
theorem flipChangesOneToggle : Obligations.FlipChangesOneToggle := by
  refine ⟨fun r => ?_, fun ep dir => ⟨channelFault_of_withChannel fun _ => rfl, channelFault_of_withChannel fun _ => rfl,
    fun s he => ⟨⟨_, exec_flipBuf_ok he, ?_⟩, ⟨_, exec_flipData_ok he, ?_⟩⟩⟩⟩
  · rw [channelOf_eq]
    exact ⟨decode_of_spells .flipBuf, decode_of_spells .flipData⟩
  · exact bufToggle_flip_eq_odd_iff s ⟨ep, dir⟩
  · exact dataToggle_flip_eq_data1_iff s ⟨ep, dir⟩

/-- Settles O25: behind its check CLEAR_TOGGLES writes both tables at its one channel, and READ_TOGGLES returns what
the two tables hold there. -/
theorem clearAndReadToggles : Obligations.ClearAndReadToggles := by
  refine ⟨fun r => ?_, fun ep dir => ⟨channelFault_of_withChannel fun _ => rfl, channelFault_of_withChannel fun _ => rfl,
    fun s he => ⟨⟨_, _, exec_clearToggles_ok he, fun c => ⟨?_, ?_⟩⟩, exec_readToggles_ok he⟩⟩⟩
  · rw [channelOf_eq]
    exact ⟨decode_of_spells .clearToggles, decode_of_spells .readToggles⟩
  · simp only [eq_comm (a := c)]
    exact bufToggle_setBufToggle s ⟨ep, dir⟩ c .even
  · simp only [eq_comm (a := c)]
    exact dataToggle_setDataToggle s ⟨ep, dir⟩ c .data0

/-- Settles O26: the table that ODD_RESET writes holds EVEN everywhere. -/
theorem oddResetAlignsTheSie : Obligations.OddResetAlignsTheSie :=
  ⟨fun _ => decode_of_spells .oddReset, fun _ => ⟨_, rfl, fun _ _ => Vector.getElem_replicate _⟩⟩

end Sys2Proof.Machine
end

section
/-! PROOFS. Two counters of a channel (R175, R181, R232): FW's BufferToggle counts the flips of a run and the SIE's
parity pointer its completions, each modulo 2, where neither is re-aligned. -/

namespace Sys2Proof.Machine

variable {s t : State} {i : Instr} {c : Channel}

/-! ## Runs -/

theorem runOps_cons_eq_some {is : List Instr} (h : runOps (i :: is) s = some t) :
    ∃ u, exec i s = .next u ∧ runOps is u = some t := by
  obtain ⟨u, hu⟩ := exec_next i s
  rw [runOps, hu] at h
  exact ⟨u, hu, h⟩

theorem completionsOn_cons (is : List Instr) (hx : exec i s = .next t) :
    completionsOn c (i :: is) s = (if completedOn c s t then 1 else 0) + completionsOn c is t := by
  rw [completionsOn, hx]

/-! ## The queue tells completions (R233) -/

theorem completedOn_of_length_le (h : t.statQ.length ≤ s.statQ.length) : completedOn c s t = false := by
  simp [completedOn, Nat.not_lt.2 h]

theorem completedOn_of_posted {h : Handle} (hq : t.statQ = s.statQ ++ [statWord h]) :
    completedOn c s t = (handleChannel h == c) := by
  simp [completedOn, hq, statHandle_statWord]

/-! ## One operation -/

theorem parity_completedState (s : State) (tok : Tok) (ep : Ep) (payload : List Byte) (n : Half) (ev : BusEvent)
    (k : Nat) (c : Channel) : (completedState s tok ep payload n ev k).parity c =
      if handleChannel (sieHandle tok ep s) = c then otherPar (s.parity c) else s.parity c := by
  simp only [completedState, parity_pushStat, parity_setParity]
  split
  · subst_vars; rfl
  · rfl

theorem parity_of_not_posted (hq : t.statQ.length ≤ s.statQ.length) (hp : t.parity c = s.parity c) :
    t.parity c = if completedOn c s t then otherPar (s.parity c) else s.parity c := by
  rw [completedOn_of_length_le hq, hp]
  rfl

/-- R232: but for ODD_RESET, the parity pointer moves exactly on a completion of its channel. -/
theorem Effect.parity (he : Effect s i t) (ho : i ≠ .oddReset) :
    t.parity c = if completedOn c s t then otherPar (s.parity c) else s.parity c := by
  cases he with
  | aligned => exact absurd rfl ho
  | popped b rest hq => exact parity_of_not_posted (by simp [hq]) rfl
  | completed tok ep =>
    rw [parity_completedState, completedOn_of_posted (statQ_completedState ..)]
    simp only [beq_iff_eq]
  | _ => exact parity_of_not_posted le_rfl rfl

/-- R35: but for the flip and the clearing of its channel, nothing writes a BufferToggle. -/
theorem Effect.bufToggle_of_ne (he : Effect s i t) (hf : i ≠ .flipBuf c.ep c.dir)
    (hc : i ≠ .clearToggles c.ep c.dir) : t.bufToggle c = s.bufToggle c := by
  cases he with
  | flippedBuf ep dir =>
    refine (bufToggle_setBufToggle s _ c _).trans (if_neg ?_)
    rintro rfl
    exact hf rfl
  | cleared ep dir =>
    refine (bufToggle_setBufToggle (s.setDataToggle ⟨ep, dir⟩ .data0) _ c _).trans (if_neg ?_)
    rintro rfl
    exact hc rfl
  | completed => rw [State.bufToggle, State.bufToggle, fwBuf_completedState]
  | _ => rfl

theorem bufToggle_of_exec (he : HasEp s c.ep) (hc : i ≠ .clearToggles c.ep c.dir) (hx : exec i s = .next t) :
    t.bufToggle c = if i = .flipBuf c.ep c.dir then notBuf (s.bufToggle c) else s.bufToggle c := by
  split
  case isTrue hi =>
    rw [hi, exec_flipBuf_ok he] at hx
    cases hx
    exact (bufToggle_setBufToggle s c c _).trans (if_pos rfl)
  case isFalse hi => exact (exec_effect hx).bufToggle_of_ne hi hc

/-! ## A run of operations -/

theorem bufToggle_of_runOps {is : List Instr} (he : HasEp s c.ep) (hc : ∀ i ∈ is, i ≠ .clearToggles c.ep c.dir)
    (h : runOps is s = some t) : t.bufToggle c = notBuf^[flipsOf c is] (s.bufToggle c) := by
  induction is generalizing s with
  | nil => cases h; rfl
  | cons i is ih =>
    obtain ⟨u, hx, hu⟩ := runOps_cons_eq_some h
    obtain ⟨hi, his⟩ := List.forall_mem_cons.1 hc
    have hcfg : u.cfg = s.cfg := (exec_effect hx).fixed.1
    have heu : HasEp u c.ep := by rwa [HasEp, hcfg]
    rw [ih heu his hu, bufToggle_of_exec he hi hx, flipsOf, flipsOf, List.count_cons]
    by_cases hf : i = .flipBuf c.ep c.dir <;> simp [hf]

theorem parity_of_runOps {is : List Instr} (ho : ∀ i ∈ is, i ≠ .oddReset) (h : runOps is s = some t) :
    t.parity c = otherPar^[completionsOn c is s] (s.parity c) := by
  induction is generalizing s with
  | nil => cases h; rfl
  | cons i is ih =>
    obtain ⟨u, hx, hu⟩ := runOps_cons_eq_some h
    obtain ⟨hi, his⟩ := List.forall_mem_cons.1 ho
    rw [ih his hu, (exec_effect hx).parity hi, completionsOn_cons is hx]
    cases completedOn c s u <;> simp [Nat.add_comm 1]

/-- R44, R183: a flip of the BufferToggle is a flip of the parity it stands for. -/
theorem toPar_semiconj : Function.Semiconj BufferToggle.toPar notBuf otherPar := by
  intro b
  cases b <;> rfl

/-- Settles O27: equally many flips of two equal values leave them equal. -/
theorem bufferToggleTracksTheSie : Obligations.BufferToggleTracksTheSie := by
  refine ⟨fun c => ⟨?_, ?_⟩, fun c is s t he hi hr hn hs => ?_⟩
  · simp [State.bufToggle, State.reset]
  · simp [State.parity, State.reset]
  · calc
      (t.bufToggle c).toPar = (notBuf^[flipsOf c is] (s.bufToggle c)).toPar := by
        rw [bufToggle_of_runOps he (fun i hm => (hi i hm).1) hr]
      _ = otherPar^[flipsOf c is] (s.bufToggle c).toPar := toPar_semiconj.iterate_right _ _
      _ = otherPar^[completionsOn c is s] (s.parity c) := by rw [hn, hs]
      _ = t.parity c := (parity_of_runOps (fun i hm => (hi i hm).2) hr).symm

end Sys2Proof.Machine
end

section
/-! PROOFS. The places of the entries in the arena (R33, R65, R170). -/

namespace Sys2Proof.Machine

theorem bitNat_dir_bit (d : Dir) : bitNat d.bit = if d = .tx then 1 else 0 := by cases d <;> rfl

theorem bitNat_par_bit (p : Par) : bitNat p.bit = if p = .odd then 1 else 0 := by cases p <;> rfl

theorem handleNumber_eq (h : Handle) : handleNumber h =
    4 * h.ep.toNat + (if h.dir = .tx then 2 else 0) + (if h.par = .odd then 1 else 0) := by
  rw [handleNumber, bitNat_dir_bit, bitNat_par_bit]
  split <;> rfl

theorem entryAddr_eq (cfg : Config) (h : Handle) : entryAddr cfg h =
    cfg.bdtBase + 32 * h.ep.toNat + (if h.dir = .tx then 16 else 0) + (if h.par = .odd then 8 else 0) := by
  rw [entryAddr, handleNumber_eq]
  split <;> split <;> omega

/-- R170: an endpoint has four entries, numbered from `4 * ep`. -/
theorem handleNumber_lt_of_ep (h : Handle) : handleNumber h < 4 * (h.ep.toNat + 1) := by
  have hd := bitNat_le h.dir.bit
  have hp := bitNat_le h.par.bit
  unfold handleNumber
  omega

theorem entryBytes_disjoint (cfg : Config) {h h' : Handle} (hne : h ≠ h') {x : Nat} (hl : entryAddr cfg h ≤ x)
    (hr : x < entryAddr cfg h + 8) : ¬ (entryAddr cfg h' ≤ x ∧ x < entryAddr cfg h' + 8) := by
  have hn : handleNumber h ≠ handleNumber h' := fun he => hne (handleNumber_injective he)
  unfold entryAddr at *
  omega

theorem arenaByte_of_entryBytes {s : State} {h : Handle} (he : HasEp s h.ep) {x : Nat} (hl : entryAddr s.cfg h ≤ x)
    (hr : x < entryAddr s.cfg h + 8) : ArenaByte s.cfg x := by
  have hn := handleNumber_lt_of_ep h
  unfold entryAddr at *
  unfold HasEp at he
  unfold ArenaByte
  omega

/-- Settles O32: different handles have different numbers below `4 * NUM_EP`, and an entry stands at 8 times its
number. -/
theorem entriesNeverAlias : Obligations.EntriesNeverAlias := fun s h _ e =>
  ⟨entry_setEntry_same s h e, fun hne => ⟨entry_setEntry_ne s e hne, fun _ => entryBytes_disjoint s.cfg hne⟩,
    handleNumber_eq h, entryAddr_eq s.cfg h, fun he _ => arenaByte_of_entryBytes he⟩

end Sys2Proof.Machine
end

section
/-! PROOFS. The status operations (R190 to R197): a STAT byte as a number, its fields and its handle, and what STAT_POP
leaves of the queue and of the interrupt level. -/

namespace Sys2Proof.Machine

variable {s t : State}

/-! ## The fields of a STAT byte (R96, R190, R191) -/

theorem statFields_eq_ofNat (raw : Byte) : statFields raw =
    ⟨BitVec.ofNat 4 (raw.toNat / 16), BitVec.ofNat 1 (raw.toNat / 8), BitVec.ofNat 1 (raw.toNat / 4)⟩ := by
  simp only [statFields, extract_eq_ofNat, Nat.reducePow]

theorem statByte_toNat (f : StatFields) :
    (statByte f).toNat = 16 * f.endp.toNat + 8 * f.tx.toNat + 4 * f.odd.toNat := by
  simp only [statByte, append_toNat, BitVec.toNat_ofNat]
  omega

theorem statByte_eq_ofNat (f : StatFields) :
    statByte f = BitVec.ofNat 8 (16 * f.endp.toNat + 8 * f.tx.toNat + 4 * f.odd.toNat) := by
  rw [← statByte_toNat, BitVec.ofNat_toNat, BitVec.setWidth_eq]

@[simp] theorem statFields_statByte (f : StatFields) : statFields (statByte f) = f := by
  obtain ⟨endp, tx, odd⟩ := f
  simp only [statFields, StatFields.mk.injEq]
  refine ⟨?_, ?_, ?_⟩ <;> apply BitVec.eq_of_toNat_eq <;> simp only [extract_toNat, statByte_toNat] <;> omega

/-- The mask `0xFC` keeps the six bits above the reserved two. -/
theorem and_statMask (raw : Byte) : raw &&& 0xFC = raw.extractLsb' 2 6 ++ 0#2 := by
  have hraw : raw.extractLsb' 2 6 ++ raw.extractLsb' 0 2 = raw := by
    rw [BitVec.extractLsb'_append_extractLsb'_eq_extractLsb' (by rfl), BitVec.extractLsb'_eq_self]
  calc
    raw &&& 0xFC = (raw.extractLsb' 2 6 ++ raw.extractLsb' 0 2) &&& (BitVec.allOnes 6 ++ 0#2) := by rw [hraw]; rfl
    _ = raw.extractLsb' 2 6 ++ 0#2 := by rw [BitVec.and_append, BitVec.and_allOnes, BitVec.and_zero]

theorem and_statMask_toNat (raw : Byte) : (raw &&& 0xFC).toNat = 4 * (raw.toNat / 4) := by
  rw [and_statMask, append_toNat, extract_toNat, BitVec.toNat_ofNat]
  omega

theorem statByte_statFields (raw : Byte) : statByte (statFields raw) = raw &&& 0xFC := by
  apply BitVec.eq_of_toNat_eq
  rw [and_statMask_toNat, statByte_toNat]
  simp only [statFields, extract_toNat]
  omega

/-! ## The handle of a STAT byte (R192, R193) -/

theorem statHandle_eq (raw : Byte) : statHandle raw = ⟨BitVec.ofNat 4 (raw.toNat / 16),
    if raw.toNat / 8 % 2 = 1 then .tx else .rx, if raw.toNat / 4 % 2 = 1 then .odd else .even⟩ := by
  have hendp : (statFields raw).endp = BitVec.ofNat 4 (raw.toNat / 16) := extract_eq_ofNat raw 4 4
  have htx : isSet (statFields raw).tx = (raw.toNat / 8 % 2 == 1) := (isSet_extract raw 3).trans (getLsbD_eq_div raw 3)
  have hodd : isSet (statFields raw).odd = (raw.toNat / 4 % 2 == 1) :=
    (isSet_extract raw 2).trans (getLsbD_eq_div raw 2)
  simp only [statHandle, hendp, htx, hodd, Dir.ofBit, Par.ofBit, beq_iff_eq]

theorem handleNumber_statHandle (raw : Byte) : handleNumber (statHandle raw) = raw.toNat / 4 := by
  have hlt := raw.isLt
  rw [handleNumber_eq, statHandle_eq]
  simp only [ite_eq_left_iff, reduceCtorEq, imp_false, Decidable.not_not, BitVec.toNat_ofNat]
  split <;> split <;> omega

/-- Settles O30: the number of the handle is the byte without its two reserved bits, and an entry stands at 8 times its
number. -/
theorem statByteIsTheEntryIndex : Obligations.StatByteIsTheEntryIndex := by
  refine fun cfg raw => ⟨handleNumber_statHandle raw, ?_⟩
  rw [entryAddr, handleNumber_statHandle, and_statMask_toNat]
  omega

/-- Settles O28: each operation takes its operands from the fields of word 0 and returns a field or the byte. -/
theorem statIsDecodedAndEncoded : Obligations.StatIsDecodedAndEncoded := by
  refine ⟨fun r => ?_, fun raw => ⟨?_, ?_, statByte_statFields raw⟩, fun f => ⟨?_, statFields_statByte f⟩⟩
  · simp only [byteOf_eq_b, fieldOf_eq_extract]
    exact ⟨decode_of_spells .statDecode, decode_of_spells .statEncode, decode_of_spells .statToHandle⟩
  · exact returns_of_exec (fun _ => rfl) (congrArg Value.stat (statFields_eq_ofNat raw))
  · exact returns_of_exec (fun _ => rfl) (congrArg Value.handle (statHandle_eq raw))
  · exact returns_of_exec (fun _ => rfl) (congrArg Value.u8 (statByte_eq_ofNat f))

/-! ## The queue and its interrupt (R195, R197) -/

theorem exec_statPop_nil (hq : s.statQ = []) : exec .statPop s = .next (s.out .empty).advance := by
  simp only [exec, execStatPop, hq]

theorem exec_statPop_cons {b : Byte} {rest : List Byte} (hq : s.statQ = b :: rest) :
    exec .statPop s = .next ((s.out (.u8 b)).setStatQ rest).advance := by
  simp only [exec, execStatPop, hq]

/-- Settles O29: one equation of STAT_POP for each form of the queue. -/
theorem statPopTakesTheOldest : Obligations.StatPopTakesTheOldest :=
  ⟨fun _ => decode_of_spells .statPop, fun _ => ⟨exec_statPop_nil, fun _ _ => exec_statPop_cons⟩⟩

theorem irqXfer_iff (s : State) : s.irqXfer = true ↔ s.statQ ≠ [] := by
  simp [State.irqXfer]

/-- STAT_POP leaves the tail of the queue, which is empty of an empty queue. -/
theorem statQ_of_statPop (hx : exec .statPop s = .next t) : t.statQ = s.statQ.tail := by
  cases hq : s.statQ with
  | nil =>
    rw [exec_statPop_nil hq] at hx
    cases hx
    exact hq
  | cons b rest =>
    rw [exec_statPop_cons hq] at hx
    cases hx
    rfl

/-- Settles O31: the level follows the queue, and a tail is non-empty exactly of two words or more. -/
theorem interruptFollowsTheQueue : Obligations.InterruptFollowsTheQueue := by
  refine fun s => ⟨irqXfer_iff s, fun t hx => ?_⟩
  rw [irqXfer_iff, statQ_of_statPop hx, ← List.length_pos_iff, List.length_tail]
  omega

end Sys2Proof.Machine
end

section
/-! PROOFS. A transaction of the SIE check by check, in the order of R216: one lemma for each answer, each guard and
each outcome of the data stage, and the statements about where a transaction stops (R217 to R226). -/

namespace Sys2Proof.Machine

variable {s : State} {tok : Tok} {ep : Ep} {pid : DataPid} {payload : List Byte} {ack lax : Bool} {h : Handle}

/-- The choices an operation has no operand for do not count: its transaction ignores them. -/
theorem exec_sieInstr_eq_transaction (tok : Tok) (ep : Ep) (pid : DataPid) (payload : List Byte) (ack lax : Bool)
    (s : State) : exec (sieInstr tok ep pid payload ack lax) s = sieTransaction tok ep pid payload ack lax s := by
  cases tok <;> rfl

/-! ## Answers without data (R217, R218, R220) -/

section Answers

variable (pid payload ack lax)

theorem sieTransaction_unanswered (ha : ¬ Answered s tok ep) :
    sieTransaction tok ep pid payload ack lax s = .next (s.bus (.answer tok ep .noResponse)) := by
  rw [← answers_iff] at ha
  simp only [sieTransaction, ha, Bool.not_false, if_true]

theorem sieTransaction_nak (ha : Answered s tok ep) (hs : Selects s tok ep h)
    (hn : s.statQ.length = s.cfg.statDepth ∨ OwnedByMcu (s.entry h)) :
    sieTransaction tok ep pid payload ack lax s = .next (s.bus (.answer tok ep .nak)) := by
  rw [← answers_iff] at ha
  rw [selects_iff] at hs
  subst hs
  by_cases hq : s.statQ.length = s.cfg.statDepth
  · simp [sieTransaction, ha, hq]
  · have ho := (isSie_false_iff _).2 (hn.resolve_left hq)
    simp [sieTransaction, ha, hq, ho]

theorem sieTransaction_stall (he : Engaged s tok ep h) (hb : (s.entry h).ctrl[2] = true) (hl : ¬ Lax tok lax) :
    sieTransaction tok ep pid payload ack lax s = .next (s.bus (.answer tok ep .stall)) := by
  have ha := (answers_iff ..).2 he.answered
  have hh := (selects_iff ..).1 he.selected
  have ho := (isSie_iff _).2 he.sieOwned
  rw [← ignores_iff] at hl
  subst hh
  simp [sieTransaction, ha, he.room, ho, isSet_ctrl, hb, hl]

end Answers

/-- Settles O45. -/
theorem unansweredTokenChangesNothing : Obligations.UnansweredTokenChangesNothing := by
  intro tok ep pid payload ack lax s ha
  rw [exec_sieInstr_eq_transaction]
  exact sieTransaction_unanswered pid payload ack lax ha

/-- Settles O46: either cause ends in the same answer. -/
theorem nakChangesNothing : Obligations.NakChangesNothing := by
  intro tok ep pid payload ack lax s h ha hs hn
  rw [exec_sieInstr_eq_transaction]
  exact sieTransaction_nak pid payload ack lax ha hs hn

/-- Settles O47. -/
theorem stallChangesNothing : Obligations.StallChangesNothing := by
  intro tok ep pid payload ack lax s h he hb hl
  rw [exec_sieInstr_eq_transaction]
  exact sieTransaction_stall pid payload ack lax he hb hl

/-! ## The guards (R219, R221 to R223) -/

section Guards

variable (k : Result)

theorem sieGuard_keepNinc (hk : (s.entry h).ctrl[5] = true ∨ (s.entry h).ctrl[4] = true) :
    sieGuard h s k = .next (s.setRefused .keepNinc) := by
  simp [sieGuard, isSet_ctrl, hk, refuse]

section PastKeepNinc

variable (h5 : (s.entry h).ctrl[5] = false) (h4 : (s.entry h).ctrl[4] = false)
include h5 h4

theorem sieGuard_reservedCtrl (hr : (s.entry h).ctrl.toNat % 4 ≠ 0) :
    sieGuard h s k = .next (s.setRefused .reservedCtrl) := by
  rw [ne_eq, ← ctrlRsvd_iff] at hr
  simp [sieGuard, isSet_ctrl, h5, h4, hr, refuse]

theorem sieGuard_unwritten (hr : (s.entry h).ctrl.toNat % 4 = 0)
    (hw : (s.entry h).bcW = false ∨ (s.entry h).addrW = false) :
    sieGuard h s k = .next (s.addFault (sieFault h)) := by
  rw [← ctrlRsvd_iff] at hr
  simp [sieGuard, isSet_ctrl, h5, h4, hr, hw, raise]

theorem sieGuard_bufferRange (hr : (s.entry h).ctrl.toNat % 4 = 0) (hb : (s.entry h).bcW = true)
    (ha : (s.entry h).addrW = true) (hf : ¬ RangeFits s (s.entry h)) :
    sieGuard h s k = .next (s.setRefused .bufferRange) := by
  rw [← ctrlRsvd_iff] at hr
  rw [← rangeOK_iff] at hf
  simp [sieGuard, isSet_ctrl, h5, h4, hr, hb, ha, hf, refuse]

end PastKeepNinc

end Guards

/-- Settles O48: behind the answers the guards decide, each in its place. -/
theorem transactionGuards : Obligations.TransactionGuards := by
  intro tok ep pid payload ack lax s h he hn
  rw [exec_sieInstr_eq_transaction, sieTransaction_engaged pid payload ack lax he hn]
  exact ⟨sieGuard_keepNinc _, fun h5 h4 => ⟨sieGuard_reservedCtrl _ h5 h4, fun hr =>
    ⟨sieGuard_unwritten _ h5 h4 hr, sieGuard_bufferRange _ h5 h4 hr⟩⟩⟩

/-! ## Behind the guards: the data stage (R224 to R226) -/

theorem sieData_of_ne_inn (ht : tok ≠ .inn) :
    sieData tok pid payload ack lax h s = sieReceive tok pid payload lax h s := by
  cases tok with
  | setup | out => rfl
  | inn => exact absurd rfl ht

/-- A receive past every check before its data stage. -/
theorem exec_receive (pid : DataPid) (payload : List Byte) (ack : Bool) (ht : tok ≠ .inn)
    (hc : Cleared s tok ep lax h) :
    exec (sieInstr tok ep pid payload ack lax) s = sieReceive tok pid payload lax h s := by
  rw [exec_sieInstr_eq_transaction, sieTransaction_cleared pid payload ack lax hc, sieData_of_ne_inn ht]

/-- An IN past every check before its data stage. -/
theorem exec_transmit (pid : DataPid) (payload : List Byte) (ack : Bool) (hc : Cleared s .inn ep lax h) :
    exec (sieInstr .inn ep pid payload ack lax) s = sieTransmit ack h s := by
  rw [exec_sieInstr_eq_transaction, sieTransaction_cleared pid payload ack lax hc]
  rfl

theorem sieReceive_overflow (hl : (s.entry h).bc.toNat < payload.length) :
    sieReceive tok pid payload lax h s = .next (s.setRefused .overflow) := if_pos hl

theorem sieReceive_mismatch (hl : payload.length ≤ (s.entry h).bc.toNat) (hm : ToggleMismatch (s.entry h) pid)
    (hx : ¬ Lax tok lax) :
    sieReceive tok pid payload lax h s = .next (s.bus (.received tok h.ep pid payload false)) :=
  (if_neg hl.not_gt).trans (if_pos ((dtsMismatch_iff ..).2 ⟨hm, hx⟩))

theorem sieReceive_stored (hs : Selects s tok ep h) (hl : payload.length ≤ (s.entry h).bc.toNat)
    (hm : ¬ ToggleMismatch (s.entry h) pid ∨ Lax tok lax) :
    sieReceive tok pid payload lax h s = .next (completedState s tok ep payload (BitVec.ofNat 16 payload.length)
      (.received tok ep pid payload true) 0) := by
  obtain rfl := (selects_iff ..).1 hs
  have hd : ¬ dtsMismatch tok pid lax (s.entry (sieHandle tok ep s)) = true := by
    rw [dtsMismatch_iff]
    tauto
  exact (if_neg hl.not_gt).trans (if_neg hd)

theorem sieTransmit_bcLimit (hl : s.cfg.maxPacket < (s.entry h).bc.toNat) :
    sieTransmit ack h s = .next (s.setRefused .bcLimit) := if_pos hl

/-- Settles O49: the first test of the receive part and of the transmit part. -/
theorem lengthRefusals : Obligations.LengthRefusals := by
  intro tok ep pid payload ack lax s h hc
  refine ⟨fun ht hl => ?_, ?_⟩
  · rw [exec_receive pid payload ack ht hc, sieReceive_overflow hl]
  · rintro rfl hl
    rw [exec_transmit pid payload ack hc, sieTransmit_bcLimit hl]

/-- Settles O50: without DTS there is no mismatch, so the packet is stored. -/
theorem toggleMismatchIsDiscarded : Obligations.ToggleMismatchIsDiscarded := by
  intro tok ep pid payload ack lax s h ht hc hl
  have hs := hc.engaged.selected
  rw [exec_receive pid payload ack ht hc]
  refine ⟨fun hm hx => ?_, fun h3 => ?_⟩
  · obtain ⟨rfl, -⟩ := hs
    exact sieReceive_mismatch hl hm hx
  · have hm : ¬ ToggleMismatch (s.entry h) pid := fun hm => by simp [hm.1] at h3
    exact ⟨_, sieReceive_stored hs hl (.inl hm), busTrace_completedState ..⟩

end Sys2Proof.Machine
end

section
/-! PROOFS. What a transaction leaves behind: the whole state after a receive and after an IN (R227 to R233), and what
no transaction and no operation of FW changes (R235, R236). -/

namespace Sys2Proof.Machine

variable {s t : State} {ep : Ep} {h : Handle}

/-! ## The state after a completion (R230 to R233) -/

theorem completedCtrl_received {tok : Tok} (c : Byte) (ht : tok ≠ .inn) :
    completedCtrl c tok.pid = (c &&& 0x43) ||| (if tok = .setup then 0x34 else 0x04) := by
  cases tok with
  | setup | out => rfl
  | inn => exact absurd rfl ht

theorem otherPar_eq_odd_iff (p : Par) : otherPar p = .odd ↔ p = .even := by
  cases p <;> simp [otherPar]

/-- R232: of all parity pointers, that of the selected entry's channel flips. -/
theorem parity_completedState_eq_odd_iff {tok : Tok} (hs : Selects s tok ep h) (payload : List Byte) (n : Half)
    (ev : BusEvent) (k : Nat) (c : Channel) : (completedState s tok ep payload n ev k).parity c = .odd ↔
      if c = ⟨ep, h.dir⟩ then s.parity c = .even else s.parity c = .odd := by
  obtain rfl := (selects_iff ..).1 hs
  have hch : handleChannel (sieHandle tok ep s) = c ↔ c = ⟨ep, (sieHandle tok ep s).dir⟩ := eq_comm
  rw [parity_completedState]
  simp only [hch]
  split
  · exact otherPar_eq_odd_iff _
  · rfl

/-- Settles O51: a receive past every check ends in `completedState`, whose fields are as claimed. -/
theorem receiveCompletes : Obligations.ReceiveCompletes := by
  intro tok ep pid payload ack lax s h ht hc hl hm
  have hs := hc.engaged.selected
  have hd : h.dir = .rx := hs.2.1.trans (if_neg ht)
  have hpar := parity_completedState_eq_odd_iff hs payload (BitVec.ofNat 16 payload.length)
    (.received tok ep pid payload true) 0
  rw [exec_receive pid payload ack ht hc, sieReceive_stored hs hl hm, ← completedCtrl_received _ ht, ← statWord_eq]
  rw [hd] at hpar
  obtain rfl := (selects_iff ..).1 hs
  exact ⟨_, _, rfl, fun k hk => (Memory.read_writeBytes_inside _ _ _ _ hk).trans (List.getElem?_eq_getElem hk).symm,
    fun a ha => Memory.read_writeBytes_outside _ _ _ _ ha, hpar⟩

/-! ## An IN (R228, R229) -/

/-- R228: a written byte of the buffer is sent as it stands. -/
theorem getElem?_dmaBytes {a n k : Nat} {b : Byte} (hk : k < n) (hb : s.mem.read (a + k) = some b) :
    (s.dmaBytes a n)[k]? = some b := by
  simp [State.dmaBytes, State.memByte, hk, hb]

/-- The bytes an IN on entry `h` sends (R228). -/
def sentBytes (s : State) (h : Handle) : List Byte := s.dmaBytes (s.entry h).addr.toNat (s.entry h).bc.toNat

theorem length_sentBytes (s : State) (h : Handle) : (sentBytes s h).length = (s.entry h).bc.toNat :=
  length_dmaBytes ..

theorem getElem?_sentBytes (k : Nat) (hk : k < (sentBytes s h).length) (b : Byte)
    (hb : s.mem.read ((s.entry h).addr.toNat + k) = some b) : (sentBytes s h)[k]? = some b :=
  getElem?_dmaBytes (length_sentBytes s h ▸ hk) hb

/-- The bus event of an IN on entry `h` (R228): its bytes with the PID of `data0_1`. -/
def sentEvent (s : State) (ep : Ep) (h : Handle) (ack : Bool) : BusEvent :=
  .sent ep (if (s.entry h).ctrl[6] then .data1 else .data0) (sentBytes s h) ack

theorem sieTransmit_sent (ack : Bool) (hs : Selects s .inn ep h) (hl : (s.entry h).bc.toNat ≤ s.cfg.maxPacket) :
    sieTransmit ack h s = .next (if ack then
      completedState s .inn ep [] (s.entry h).bc (sentEvent s ep h ack) (s.entry h).bc.toNat
      else (s.bus (sentEvent s ep h ack)).useDraws (s.entry h).bc.toNat) := by
  obtain rfl := (selects_iff ..).1 hs
  rw [sentEvent, ← (isSet_ctrl _).1]
  exact if_neg hl.not_gt

/-- Settles O52. -/
theorem unacknowledgedInChangesNothing : Obligations.UnacknowledgedInChangesNothing := by
  intro ep s h hc hl
  have hx := (exec_transmit .data0 [] false hc).trans (sieTransmit_sent false hc.engaged.selected hl)
  exact ⟨_, sentBytes s h, hx, rfl, length_sentBytes s h, getElem?_sentBytes⟩

/-- Settles O53: an acknowledged IN ends in `completedState`, with an empty payload so that memory stays. -/
theorem acknowledgedInCompletes : Obligations.AcknowledgedInCompletes := by
  intro ep s h hc hl
  have hs := hc.engaged.selected
  have hd : h.dir = .tx := hs.2.1
  have hx := (exec_transmit .data0 [] true hc).trans (sieTransmit_sent true hs hl)
  have hpar := parity_completedState_eq_odd_iff hs [] (s.entry h).bc (sentEvent s ep h true) (s.entry h).bc.toNat
  rw [hd] at hpar
  refine ⟨_, _, sentBytes s h, hx, ?_, length_sentBytes s h, getElem?_sentBytes, hpar⟩
  rw [← statWord_eq]
  obtain rfl := (selects_iff ..).1 hs
  rfl

/-! ## What a transaction leaves (R180, R235) -/

/-- Settles O54: only a completion touches the block's state, and it hands the selected entry back. -/
theorem transactionTouchesOneEntry : Obligations.TransactionTouchesOneEntry := by
  intro tok ep pid payload ack lax s t h hs hx
  obtain rfl := (selects_iff ..).1 hs
  rw [exec_sieInstr_eq_transaction] at hx
  rcases sieTransaction_cases tok ep pid payload ack lax s with
    ⟨ev, k, hr⟩ | ⟨h', hr⟩ | ⟨q, -, hr⟩ | ⟨bytes, n, ev, k, -, hr⟩ <;> cases hr.symm.trans hx
  case inr.inr.inr =>
    have he := entry_completedState s tok ep bytes n ev k
    have hself := (he _).trans (if_pos rfl)
    refine ⟨fun h' hne => (he h').trans (if_neg hne.symm), (congrArg BdtEntry.addr hself :),
      (congrArg BdtEntry.addrW hself :), (congrArg BdtEntry.rsvd hself :), fwBuf_completedState ..,
      fwData_completedState .., pending_completedState .., fun hkept ho => ?_⟩
    rw [← hkept, hself] at ho
    exact absurd ho ((not_sie_iff _).2 (ownedByMcu_handedBack ..))
  all_goals exact ⟨fun _ _ => rfl, rfl, rfl, rfl, rfl, rfl, rfl, fun _ _ => ⟨rfl, rfl, rfl⟩⟩

/-! ## What FW leaves (R79, R236) -/

theorem afterBarrier_of_acquired {e : BdtEntry} (ha : e.sync = .acquired) : e.afterBarrier = e := by
  simp [BdtEntry.afterBarrier, ha]

/-- A SIE-owned entry that is acquired is out of FW's reach: a barrier does not move it and no writer may access it. -/
theorem EntryEffect.kept_of_sieOwned {i : Instr} {e : BdtEntry} (he : EntryEffect s t h i e)
    (ho : OwnedBySie (s.entry h)) (ha : (s.entry h).sync = .acquired) (hi : fromHost i = false) : e = s.entry h := by
  cases he with
  | kept => rfl
  | barrier | initOther => exact afterBarrier_of_acquired ha
  | readCtrl => exact afterReadCtrl_of_sie ho
  | handedBack => rw [fromHost_sieInstr] at hi; cases hi
  | initialised _ _ _ hm | wroteBc _ hm | wroteAddr _ hm | wroteCtrl _ hm =>
    exact absurd ho ((not_sie_iff _).2 hm.mcuOwned)

/-- Settles O56: the invariant keeps a released entry acquired. -/
theorem sieOwnedEntryIsSafeFromFirmware : Obligations.SieOwnedEntryIsSafeFromFirmware := by
  intro i s t h hinv ho hfw hx
  have hi : fromHost i = false := by
    rw [← Bool.not_eq_true, fromHost_iff]
    rintro ⟨tok, ep, pid, payload, ack, lax, rfl⟩
    exact hfw tok ep pid payload ack lax rfl
  exact (entryEffect_of_exec hx h).kept_of_sieOwned ho (hinv.released h ho).2 hi

end Sys2Proof.Machine
end

section
/-! PROOFS. BARRIER (R250), and the checks of R252: what each of them makes of a memory operation, in their order. -/

namespace Sys2Proof.Machine

/-- Settles O41: a barrier applies `BdtEntry.afterBarrier` to every entry. -/
theorem barrierAcquiresObservedEntries : Obligations.BarrierAcquiresObservedEntries :=
  ⟨fun _ => decode_of_spells .barrier, fun s =>
    ⟨mapTable BdtEntry.afterBarrier s.bdt, rfl, entry_mapTable s BdtEntry.afterBarrier⟩⟩

/-! ## One outcome for each check (R252) -/

section Checks

variable {s : State} {addr : Word} {n : Nat} {kind : MemKind} (k : Result)

theorem withMem_misaligned (hk : kind ≠ .fetch) (hn : 0 < n) (ha : addr.toNat % n ≠ 0) :
    withMem addr n kind s k = .next (s.addFault ⟨.misaligned, .address addr, some s.pc⟩) := by
  have hn1 : n ≠ 1 := fun h => ha (h ▸ Nat.mod_one _)
  have hbad : kind ≠ .fetch ∧ 1 < n ∧ addr.toNat % n ≠ 0 := ⟨hk, by omega, ha⟩
  rw [withMem, fwMemCheck, if_pos hbad]
  rfl

theorem not_misaligned (ha : kind = .fetch ∨ addr.toNat % n = 0) :
    ¬ (kind ≠ .fetch ∧ 1 < n ∧ addr.toNat % n ≠ 0) :=
  fun ⟨hk, _, hm⟩ => ha.elim hk hm

variable (ha : kind = .fetch ∨ addr.toNat % n = 0)

include ha

theorem withMem_addrWrap (hw : 2 ^ 32 < addr.toNat + n) : withMem addr n kind s k = .next (s.setRefused .addrWrap) := by
  rw [withMem, fwMemCheck, if_neg (not_misaligned ha), if_pos hw]
  rfl

variable (hw : addr.toNat + n ≤ 2 ^ 32)

include hw

theorem withMem_arenaAccess (hm : Touches addr.toNat n (ArenaByte s.cfg)) :
    withMem addr n kind s k = .next (s.setRefused .arenaAccess) := by
  rw [withMem, fwMemCheck, if_neg (not_misaligned ha), if_neg hw.not_gt, if_pos ((meetsArena_iff ..).2 hm)]
  rfl

variable (hm : ¬ Touches addr.toNat n (ArenaByte s.cfg))

include hm

theorem withMem_ownViolation (hk : kind = .store) (ho : TouchesSieBuffer s addr.toNat n) :
    withMem addr n kind s k = .next (s.addFault ⟨.ownViolation, .address addr, some s.pc⟩) := by
  rw [withMem, fwMemCheck, if_neg (not_misaligned ha), if_neg hw.not_gt, if_neg (mt (meetsArena_iff ..).1 hm),
    if_pos ⟨hk, (storeHitsSie_iff ..).2 ho⟩]
  rfl

/-- Of several buffers that FW has not acquired, the first in index order is recorded (log entry 7). -/
theorem withMem_unorderedAcquire (ho : kind ≠ .store ∨ ¬ TouchesSieBuffer s addr.toNat n)
    (hu : ∃ h, UnacquiredBuffer s addr.toNat n h) : ∃ h, UnacquiredBuffer s addr.toNat n h ∧
      withMem addr n kind s k = .next (s.addFault ⟨.unorderedAcquire, .handle h, some s.pc⟩) := by
  have hs : ¬ (kind = .store ∧ storeHitsSie s addr.toNat n = true) := by
    rw [storeHitsSie_iff]
    tauto
  cases hf : unacquiredAt s addr.toNat n with
  | none => exact absurd hu (unacquiredAt_none hf)
  | some h =>
    refine ⟨h, unacquiredAt_some hf, ?_⟩
    rw [withMem, fwMemCheck, if_neg (not_misaligned ha), if_neg hw.not_gt, if_neg (mt (meetsArena_iff ..).1 hm),
      if_neg hs, hf]
    rfl

end Checks

/-! ## The checks of an operation, all together -/

variable {s : State} {i : Instr} {addr : Word} {n : Nat} {kind : MemKind}

/-- An operation behind `withMem` has the checks of R252: a fetch asks for no alignment, and only a store minds the
buffers the SIE owns. -/
theorem memoryChecks_of_withMem {k : State → Result} (hn : 0 < n)
    (hx : ∀ s, exec i s = withMem addr n kind s (k s)) : MemoryChecks i addr n (kind != .fetch) (kind == .store) := by
  intro s
  simp only [hx, bne_iff_ne, beq_iff_eq, bne_eq_false_iff_eq, beq_eq_false_iff_ne]
  exact ⟨fun ⟨hk, hm⟩ => withMem_misaligned _ hk hn hm, fun ha => ⟨withMem_addrWrap _ ha, fun hw =>
    ⟨withMem_arenaAccess _ ha hw, fun hm => ⟨fun ⟨hk, ho⟩ => withMem_ownViolation _ ha hw hm hk ho,
      withMem_unorderedAcquire _ ha hw hm⟩⟩⟩⟩

/-- Where the checks of R252 pass, the operation goes on. -/
theorem MemoryFree.withMem_eq (hf : MemoryFree s addr n (kind != .fetch) (kind == .store)) (k : Result) :
    withMem addr n kind s k = k :=
  withMem_ok k (by simpa using hf.isAligned) hf.inSpace hf.offArena (by simpa using hf.offSie) hf.isAcquired

end Sys2Proof.Machine
end

section
/-! PROOFS. FW's memory operations (R255 to R257): a store and a load of `n` bytes once for all widths, and the fetch of
a SETUP packet. -/

namespace Sys2Proof.Machine

variable {i : Instr} {addr : Word} {n : Nat}

/-! ## Stores (R255) -/

theorem storesBytes_of_memStore {v : Word} (hn : 0 < n) (hx : ∀ s, exec i s = memStore n v addr s) :
    StoresBytes i addr n v.toNat := by
  refine ⟨memoryChecks_of_withMem (kind := .store) hn hx, fun s hf =>
    ⟨s.mem.writeBytes addr.toNat (leBytes n v), ?_, fun k hk => ?_, fun a ha => ?_⟩⟩
  · rw [hx, memStore, MemoryFree.withMem_eq hf]
    rfl
  · have hk' : k < (leBytes n v).length := by rwa [length_leBytes]
    rw [Memory.read_writeBytes_inside _ _ _ _ hk', getElem_leBytes]
  · rw [Memory.read_writeBytes_outside _ _ _ _ (by rwa [length_leBytes])]

/-- A narrow store writes its operand's own bytes. -/
theorem storesBytes_of_narrow {w : Nat} {v : BitVec w} (hw : w ≤ 32) (hn : 0 < n)
    (hx : ∀ s, exec i s = memStore n (v.setWidth 32) addr s) : StoresBytes i addr n v.toNat :=
  BitVec.toNat_setWidth_of_le hw ▸ storesBytes_of_memStore hn hx

/-- Settles O42: each width is `memStore` of the operand. -/
theorem storesWriteTheirBytes : Obligations.StoresWriteTheirBytes := by
  refine ⟨fun r hr => ?_, fun addr => ⟨fun v => ?_, fun v => ?_, fun v => ?_⟩⟩
  · simp only [decode_of_spells .memStore hr, decodeOp, sz_toNat, fieldOf_eq_extract]
    exact ⟨fun hz => by simp only [hz], fun hz => by simp only [hz], fun hz => by simp only [hz]⟩
  · exact storesBytes_of_narrow (by decide) (by decide) fun _ => rfl
  · exact storesBytes_of_narrow (by decide) (by decide) fun _ => rfl
  · exact storesBytes_of_memStore (by decide) fun _ => rfl

/-! ## Loads (R256) -/

/-- A written byte that the SIE cannot be writing is loaded as it stands. -/
theorem getElem?_loadBytes {s : State} {a k : Nat} {b : Byte} (hk : k < n) (hd : ¬ SieMayWrite s (a + k))
    (hb : s.mem.read (a + k) = some b) : (s.loadBytes a n)[k]? = some b := by
  simp [State.loadBytes, State.memByte, drawnByte_iff, hk, hd, hb]

theorem loadsBytes_of_memLoad (hn : 0 < n) (h4 : n ≤ 4) (hx : ∀ s, exec i s = memLoad n addr s) :
    LoadsBytes i addr n := by
  refine ⟨memoryChecks_of_withMem (kind := .load) hn hx, fun s hf => ?_⟩
  have hl := length_loadBytes s addr.toNat n
  obtain ⟨hlt, hbytes⟩ := leWord_bytes (s.loadBytes addr.toNat n) (hl.trans_le h4)
  refine ⟨_, leWord (s.loadBytes addr.toNat n), (hx s).trans (MemoryFree.withMem_eq hf _), rfl, by rwa [hl] at hlt,
    fun k hk hd b hb => ?_⟩
  obtain ⟨hk', rfl⟩ := List.getElem?_eq_some_iff.1 (getElem?_loadBytes hk hd hb)
  exact hbytes k hk'

/-- Settles O43: each width is `memLoad`. -/
theorem loadsReturnTheirBytes : Obligations.LoadsReturnTheirBytes := by
  refine ⟨fun r hr => ?_, fun addr => ⟨?_, ?_, ?_⟩⟩
  · simp only [decode_of_spells .memLoad hr, decodeOp, sz_toNat]
    exact ⟨fun hz => by simp only [hz], fun hz => by simp only [hz], fun hz => by simp only [hz]⟩
  all_goals exact loadsBytes_of_memLoad (by decide) (by decide) fun _ => rfl

/-! ## The fetch of a SETUP packet (R257) -/

/-- Settles O44: the packet is `decodeSetup` of the eight bytes loaded. -/
theorem setupFetchDecodesMemory : Obligations.SetupFetchDecodesMemory := by
  refine ⟨fun _ => decode_of_spells .setupFetch, fun addr =>
    ⟨memoryChecks_of_withMem (kind := .fetch) (by decide) fun _ => rfl, fun s hf => ?_⟩⟩
  have hx : exec (.setupFetch addr) s = _ := MemoryFree.withMem_eq (kind := .fetch) hf _
  exact ⟨_, _, hx, rfl, s.loadBytes addr.toNat 8, length_loadBytes .., rfl, fun k hk hd b hb =>
    getElem?_loadBytes hk hd hb⟩

end Sys2Proof.Machine
end

section
/-! PROOFS. The exceptions (R271, R272, R277, R279): what recording a mark does, what an operation can do to the marks,
and what a step of a marked state answers. -/

namespace Sys2Proof.Machine

variable {s t : State} {i : Instr}

/-! ## Recording a mark -/

theorem faults_prefix_addFault (s : State) (r : FaultRecord) : s.faults <+: (s.addFault r).faults := by
  rw [faults_addFault]
  split
  · exact List.prefix_rfl
  · exact List.prefix_append ..

theorem mem_faults_addFault (s : State) (r : FaultRecord) : r ∈ (s.addFault r).faults := by
  rw [faults_addFault]
  split
  · assumption
  · exact List.mem_concat_self

theorem refused_setRefused_of_some {q : Refusal} (q' : Refusal) (hq : s.refused = some q) :
    (s.setRefused q').refused = some q := by
  rw [refused_setRefused, hq]

theorem refused_setRefused_of_none (q : Refusal) (hn : s.refused = none) : (s.setRefused q).refused = some q := by
  rw [refused_setRefused, hn]

/-! ## What an operation can do to the marks -/

@[simp] theorem faults_completedState (s : State) (tok : Tok) (ep : Ep) (payload : List Byte) (n : Half)
    (ev : BusEvent) (k : Nat) : (completedState s tok ep payload n ev k).faults = s.faults := by
  simp [completedState]

@[simp] theorem refused_completedState (s : State) (tok : Tok) (ep : Ep) (payload : List Byte) (n : Half)
    (ev : BusEvent) (k : Nat) : (completedState s tok ep payload n ev k).refused = s.refused := by
  simp [completedState]

/-- An operation records one fault, or is refused with a code of R274, or leaves both marks. -/
theorem Effect.marks (he : Effect s i t) :
    (∃ r, t = s.addFault r) ∨ (∃ q, q ∈ refusalCodes ∧ t = s.setRefused q) ∨
      (t.faults = s.faults ∧ t.refused = s.refused) := by
  cases he with
  | faulted _ r => exact .inl ⟨r, rfl⟩
  | turnedAway _ q hq => exact .inr (.inl ⟨q, hq, rfl⟩)
  | completed => exact .inr (.inr ⟨faults_completedState .., refused_completedState ..⟩)
  | _ => exact .inr (.inr ⟨rfl, rfl⟩)

theorem Effect.faults_prefix (he : Effect s i t) : s.faults <+: t.faults := by
  rcases he.marks with ⟨r, rfl⟩ | ⟨q, -, rfl⟩ | ⟨hf, -⟩
  · exact faults_prefix_addFault s r
  · exact List.prefix_rfl
  · exact hf ▸ List.prefix_rfl

theorem Effect.refused_of_some (he : Effect s i t) {q : Refusal} (hq : s.refused = some q) : t.refused = some q := by
  rcases he.marks with ⟨r, rfl⟩ | ⟨q', -, rfl⟩ | ⟨-, hr⟩
  · exact hq
  · exact refused_setRefused_of_some q' hq
  · exact hr.trans hq

theorem Effect.eq_addFault (he : Effect s i t) (hne : t.faults ≠ s.faults) : ∃ r, t = s.addFault r := by
  rcases he.marks with hr | ⟨q, -, rfl⟩ | ⟨hf, -⟩
  · exact hr
  · exact absurd (faults_setRefused s q) hne
  · exact absurd hf hne

theorem Effect.eq_setRefused (he : Effect s i t) (hne : t.refused ≠ s.refused) :
    ∃ q, q ∈ refusalCodes ∧ t = s.setRefused q := by
  rcases he.marks with ⟨r, rfl⟩ | hq | ⟨-, hr⟩
  · exact absurd (refused_addFault s r) hne
  · exact hq
  · exact absurd hr hne

/-- Settles O9: whatever an operation does, the faults before are a prefix and a set refusal stays. -/
theorem marksAreSticky : Obligations.MarksAreSticky := by
  intro i s t hx
  have he := exec_effect hx
  exact ⟨he.faults_prefix, fun _ => he.refused_of_some, mem_faults_addFault s, refused_setRefused_of_none⟩

/-- Settles O10: an operation that changes a mark has the effect of `addFault` or of `setRefused` alone. -/
theorem faultsAndRefusalsHaveNoOtherEffect : Obligations.FaultsAndRefusalsHaveNoOtherEffect := by
  intro i s
  obtain ⟨t, hx, he⟩ := answers i s
  exact ⟨t, hx, he.eq_addFault, he.eq_setRefused⟩

/-! ## A step of a marked state (R277) -/

theorem step_of_faulted {r : FaultRecord} {rest : List FaultRecord} (hf : s.faults = r :: rest) :
    step s = .fault r.code := by
  simp [step_eq_outcome, nextAction, hf]

/-- Settles O7: a fault is looked for first, then a refusal, and each is the answer. -/
theorem faultedOrRefusedStateStops : Obligations.FaultedOrRefusedStateStops := fun _ =>
  ⟨fun _ _ => step_of_faulted, fun _ => step_of_refused⟩

end Sys2Proof.Machine
end
